-- ==== Sys2Proof/Word.lean ====
section
/-! DEFINITION. Word.lean: the widths of the block (00_scope R5: 64-bit registers and words; bytes; binary32). -/

namespace Sys2Proof

/-- A 64-bit register, message or memory word (R5). -/
abbrev Word := BitVec 64
/-- One byte of node memory, job scratch or text. -/
abbrev Byte := BitVec 8
/-- A binary32 bit pattern (R99). -/
abbrev F32 := BitVec 32
/-- A request handle: generation in [31:16], Manifest index in [15:0] (R136). -/
abbrev Handle := BitVec 32
/-- A tally value: a count of GCLK cycles (00_scope, R2, R8). The 64-bit counter is held as a count. -/
abbrev Stamp := Nat

end Sys2Proof
end

