-- ==== Sys2Proof/Syntax.lean ====
section
/-! DEFINITION. Syntax.lean: the commands of the block, one constructor per row of spec/opcode_table.json.
Every command carries as its first operand `t` the stamp at which it is presented (01_request_journey R8); the other
operands are what the row's port, pin, packet or register write carries. A Salm instruction carries the job slot in which it
issues, bits [25:0] of its word (the opcode is the constructor) and its extension word (09_salm_model R203, R204). A Landing
command carries only its stamp: its cell waits in the command queue (11_landing R242). -/

namespace Sys2Proof

/-- The IEEE 1500 wrapper instructions (R283). -/
inductive WrapperIns where
  | bypass
  | extest
  | intest
  | mbist
deriving DecidableEq, Repr

/-- What every Ferry packet brings with its stamp: SEQ, CRED and ACKSEQ, whether its CRC holds (R304, R305), and the symbol errors of each
codeword that ends with it (R301). -/
structure PktHdr where
  seq  : BitVec 16
  cred : BitVec 10
  ack  : BitVec 16
  good : Bool
  errs : List Nat
deriving DecidableEq, Repr

/-- The end of an operation of the NVM device: its stamp, and whether the device reports an error (14 R328). -/
structure DeviceEnd where
  t   : Stamp
  err : Bool
deriving DecidableEq, Repr

/-- A change of the pin PFW_N: its stamp, and whether the pin is low from here on (14 R334). -/
structure PfwEdge where
  t   : Stamp
  low : Bool
deriving DecidableEq, Repr

/-- The end of an image load's accesses: the domain, and the address of a line that was answered with MS_ERR (11 R255). -/
structure LoadEnd where
  dom : BitVec 8
  err : Option (BitVec 40)
deriving DecidableEq, Repr

/-- The far end of a group, as its LINK packet names it: block number and GROUPS (13 R302). -/
structure LinkEnd where
  block  : BitVec 6
  groups : BitVec 2
deriving DecidableEq, Repr

/-- The functional outputs with a wrapper cell: the synchronous outputs of R267-R275 but for the port clocks and ALIVE (R283). A lane,
channel or port stands behind the name. -/
inductive OutSig where
  | tiReady (n : Fin 8)
  | moValid (n : Fin 8)
  | moData (n : Fin 8)
  | mrqReady (n : Fin 8)
  | mrsValid (n : Fin 8)
  | mrsOk (n : Fin 8)
  | mrsData (n : Fin 8)
  | toValid (n : Fin 8)
  | toData (n : Fin 8)
  | piReady
  | voValid
  | voData
  | mqValid (p : Fin 16)
  | mqWrite (p : Fin 16)
  | mqAddr (p : Fin 16)
  | mqTag (p : Fin 16)
  | mqWdata (p : Fin 16)
  | mqBe (p : Fin 16)
  | mqWpois (p : Fin 16)
  | msReady (p : Fin 16)
  | cnReady
  | cnRvalid
  | cnRdata
  | irq
deriving DecidableEq, Repr

/-- The functional inputs with a wrapper cell: the synchronous inputs of R267-R275 (R283). -/
inductive InSig where
  | tiValid (n : Fin 8)
  | tiData (n : Fin 8)
  | mrqValid (n : Fin 8)
  | mrqId (n : Fin 8)
  | mrqGen (n : Fin 8)
  | mrqLine (n : Fin 8)
  | toReady (n : Fin 8)
  | piValid
  | piData
  | voReady
  | mqReady (p : Fin 16)
  | msValid (p : Fin 16)
  | msWrite (p : Fin 16)
  | msTag (p : Fin 16)
  | msData (p : Fin 16)
  | msPois (p : Fin 16)
  | msErr (p : Fin 16)
  | cnValid
  | cnWrite
  | cnAddr
  | cnWdata
deriving DecidableEq, Repr

/-- A cycle of WRCK on the wrapper's selected register (R283): it captures, or shifts one place from WSI towards WSO. The order of the cells
in a register is not given, so a capture brings its bits, the one nearest WSO first. -/
inductive SerStep where
  | capture (bits : List Bool)
  | shift (wsi : Bool)
deriving DecidableEq, Repr

/-- What reaches the wrapper up to an update (R283): WRSTN low, or the cycles before it, the instruction and the values of the boundary
register's cells from here on; `shifting`: it stands in a shift state afterwards. -/
structure WrapperUpdate where
  wrstnLow : Bool
  steps    : List SerStep
  ins      : WrapperIns
  cells    : List (OutSig × Nat)
  inputs   : List (InSig × Nat)
  shifting : Bool
deriving DecidableEq, Repr

/-- A cycle of TCK on the boundary-scan segment (R284): BS_CAPTURE with the levels of the 12 pins, BS_SHIFT with BS_SI, BS_UPDATE. -/
inductive BsStep where
  | capture (pins : BitVec 12)
  | shift (si : Bool)
  | update
deriving DecidableEq, Repr

/-- A change at the boundary-scan cells: the cycles before it, and the level of BS_MODE (R284). -/
structure BsUpdate where
  high  : Bool
  steps : List BsStep
deriving DecidableEq, Repr

/-- A command: one row of the table of operations and events. -/
inductive Instr where
  /-- TOKEN (R22): A plain sampled token word is captured on a Token In lane and runs the fixed 12-stage path: lookup, automaton advance, verdict, mask descriptor and Hold enqueue -/
  | token (t : Stamp) (lane : Fin 8) (handle : Handle) (tok : BitVec 18) (resv : BitVec 30)
  /-- NODE (R35): A speculative tree node is captured on Token In, claims or extends its step's frame, advances automata into the frame and drives its descriptor -/
  | node (t : Stamp) (lane : Fin 8) (handle : Handle) (tok : BitVec 18) (node parent : BitVec 6) (root : Bool) (resv : BitVec 30)
  /-- ACCEPT (R37): An ACCEPT transfer closes the open speculative step, commits the named path's states, verdicts and tokens and frees the frame -/
  | accept (t : Stamp) (lane : Fin 8) (handle : Handle) (node : BitVec 6) (noneBit : Bool) (resv : BitVec 30)
  /-- PRIME (R372): A PRIME transfer drives a descriptor for the request's current automaton states without advancing or enqueuing anything -/
  | prime (t : Stamp) (lane : Fin 8) (handle : Handle) (resv : BitVec 30)
  /-- MASK_READ (R34): A Mask Read request is accepted and its 512-bit line, or a not-valid response, is returned 4 GCLK later -/
  | maskRead (t : Stamp) (chan : Fin 8) (id : BitVec 16) (gen : BitVec 8) (line : BitVec 9)
  /-- PROMPT_IN (R83): A Prompt In transfer is captured, checked, detokenised and repaired into the prompt view, opening the prompt window on the first -/
  | promptIn (t : Stamp) (w : BitVec 576)
  /-- TOKEN_OUT_WORD (R268): A released word leaves on its Token Out lane when TO_READY allows -/
  | tokenOutWord (t : Stamp) (lane : Fin 8)
  /-- VERDICT_OUT_WORD (R270): A queued prompt verdict word leaves on Verdict Out when VO_READY allows -/
  | verdictOutWord (t : Stamp)
  /-- MEMORY_REQUEST (R287): A unit's memory request is checked against window and regions and issued on its port when MQ_READY allows -/
  | memoryRequest (t : Stamp) (port : Fin 16)
  /-- MEMORY_RESPONSE (R272): A read return or write completion is accepted on a memory port and delivered to the waiting unit -/
  | memoryResponse (t : Stamp) (port : Fin 16) (write : Bool) (tag : BitVec 8) (data : BitVec 1024) (pois : BitVec 16) (err : Bool)
  /-- CLOSE_TIME (R44): A chunk's close time arrives and the chunk closes and triggers its chunk graph -/
  | closeTime (t : Stamp) (idx : BitVec 16)
  /-- DEADLINE_EXPIRY (R54): A chunk's release window ends; an unjudged chunk misses and the domain's miss action applies -/
  | deadlineExpiry (t : Stamp) (idx : BitVec 16)
  /-- PROMPT_DEADLINE_EXPIRY (R15): The prompt window closes without a verdict and the miss action is presented on Verdict Out -/
  | promptDeadlineExpiry (t : Stamp) (idx : BitVec 16)
  /-- RELEASE (R52): A judged chunk whose predecessors are released is released to Token Out at its release tally -/
  | release (t : Stamp) (idx : BitVec 16)
  /-- GRAPH_START (R160): A queued graph trigger obtains an instance record and starts its graph instance -/
  | graphStart (t : Stamp)
  /-- DEPENDENCE_RESOLVE (R162): Two MCLK after a job's END or a SKIP the Dispatcher resolves dependences and marks tasks ready -/
  | dependenceResolve (t : Stamp) (inst : BitVec 11)
  /-- JOB_PLACE (R167): The Dispatcher places the first eligible job, new or resumed, into a free job slot -/
  | jobPlace (t : Stamp)
  /-- SLOT_BOUNDARY (R171): A Timetable slot boundary changes eligibility for a class and starts any overrun -/
  | slotBoundary (t : Stamp) (cls : Fin 4)
  /-- BANK_SWITCH (R184): A pending Timetable bank switch takes effect at the common round start and raises BANK_SWITCHED -/
  | bankSwitch (t : Stamp) (cls : Fin 4)
  /-- OVERRUN (R175): An overrun reaching RUNLIM faults the command's job with cause OVERRUN -/
  | overrun (t : Stamp) (slot : Fin 64)
  /-- HOLDLIM (R179): The deferral window of a job holding a semaphore or credit ends and the job faults with HOLDLIM -/
  | holdlim (t : Stamp) (slot : Fin 64)
  /-- CALL_START (R173): A queued engine call becomes first among eligible calls and starts on a free unit -/
  | callStart (t : Stamp) (cls : Fin 4)
  /-- CALL_COMPLETE (R229): An engine call finishes; its output and status are written to job scratch -/
  | callComplete (t : Stamp) (slot : Fin 64) (call : Nat)
  /-- VIEW_BUILD (R74): A view builder finishes building a closed chunk's repaired view into a view slot -/
  | viewBuild (t : Stamp) (builder : Fin 2)
  /-- SEM_GRANT (R178): A released semaphore is granted to its next waiter, resuming it -/
  | semGrant (t : Stamp) (dom : BitVec 8) (sem : BitVec 4)
  /-- CREDIT_GRANT (R234): A suspended CRACQ is granted its credits whole and resumes -/
  | creditGrant (t : Stamp) (pool : Fin 8)
  /-- ALU (R209): Integer and bit operation selected by FN -/
  | alu (t : Stamp) (slot : Fin 64) (f : BitVec 26) (x : BitVec 32)
  /-- ADDI (R210): Add immediate -/
  | addi (t : Stamp) (slot : Fin 64) (f : BitVec 26) (x : BitVec 32)
  /-- ANDI (R210): And immediate -/
  | andi (t : Stamp) (slot : Fin 64) (f : BitVec 26) (x : BitVec 32)
  /-- ORI (R210): Or immediate -/
  | ori (t : Stamp) (slot : Fin 64) (f : BitVec 26) (x : BitVec 32)
  /-- XORI (R210): Xor immediate -/
  | xori (t : Stamp) (slot : Fin 64) (f : BitVec 26) (x : BitVec 32)
  /-- SHI (R210): Shift by immediate -/
  | shi (t : Stamp) (slot : Fin 64) (f : BitVec 26) (x : BitVec 32)
  /-- MULDIV (R211): Multiply, divide or remainder selected by FN -/
  | muldiv (t : Stamp) (slot : Fin 64) (f : BitVec 26) (x : BitVec 32)
  /-- LI (R210): Load immediate -/
  | li (t : Stamp) (slot : Fin 64) (f : BitVec 26) (x : BitVec 32)
  /-- LIH (R210): Load immediate into the upper half -/
  | lih (t : Stamp) (slot : Fin 64) (f : BitVec 26) (x : BitVec 32)
  /-- EXTR (R210): Extract a bit field -/
  | extr (t : Stamp) (slot : Fin 64) (f : BitVec 26) (x : BitVec 32)
  /-- CMP (R212): Set a predicate from a register comparison -/
  | cmp (t : Stamp) (slot : Fin 64) (f : BitVec 26) (x : BitVec 32)
  /-- CMPI (R212): Set a predicate from an immediate comparison -/
  | cmpi (t : Stamp) (slot : Fin 64) (f : BitVec 26) (x : BitVec 32)
  /-- PLOG (R213): Predicate logic -/
  | plog (t : Stamp) (slot : Fin 64) (f : BitVec 26) (x : BitVec 32)
  /-- FPU (R214): Binary32 operation selected by FN -/
  | fpu (t : Stamp) (slot : Fin 64) (f : BitVec 26) (x : BitVec 32)
  /-- FCMP (R215): Set a predicate from a binary32 comparison -/
  | fcmp (t : Stamp) (slot : Fin 64) (f : BitVec 26) (x : BitVec 32)
  /-- LD (R216): Zero-extending load from scratch, a state window or result words -/
  | ld (t : Stamp) (slot : Fin 64) (f : BitVec 26) (x : BitVec 32)
  /-- LDS (R216): Sign-extending load -/
  | lds (t : Stamp) (slot : Fin 64) (f : BitVec 26) (x : BitVec 32)
  /-- ST (R216): Store to scratch or a program area with poison -/
  | st (t : Stamp) (slot : Fin 64) (f : BitVec 26) (x : BitVec 32)
  /-- LDM (R217): Node-memory load checked against regions -/
  | ldm (t : Stamp) (slot : Fin 64) (f : BitVec 26) (x : BitVec 32)
  /-- MAPW (R218): Map a page-list entry into a state window -/
  | mapw (t : Stamp) (slot : Fin 64) (f : BitVec 26) (x : BitVec 32)
  /-- POST (R219): Post the task's result word -/
  | post (t : Stamp) (slot : Fin 64) (f : BitVec 26) (x : BitVec 32)
  /-- SKIP (R220): Add tasks to the instance's SKIP set -/
  | skipTasks (t : Stamp) (slot : Fin 64) (f : BitVec 26) (x : BitVec 32)
  /-- RDS (R221): Read a special register -/
  | rds (t : Stamp) (slot : Fin 64) (f : BitVec 26) (x : BitVec 32)
  /-- BR (R222): Guarded relative branch -/
  | br (t : Stamp) (slot : Fin 64) (f : BitVec 26) (x : BitVec 32)
  /-- JAL (R223): Jump and link -/
  | jal (t : Stamp) (slot : Fin 64) (f : BitVec 26) (x : BitVec 32)
  /-- MATCH (R224): Issue a byte-pattern call -/
  | matchCall (t : Stamp) (slot : Fin 64) (f : BitVec 26) (x : BitVec 32)
  /-- XLATE (R224): Issue a retokenisation call -/
  | xlate (t : Stamp) (slot : Fin 64) (f : BitVec 26) (x : BitVec 32)
  /-- FEATURE (R224): Issue a front-stage call -/
  | feature (t : Stamp) (slot : Fin 64) (f : BitVec 26) (x : BitVec 32)
  /-- TREE (R224): Issue a tree-engine call -/
  | treeCall (t : Stamp) (slot : Fin 64) (f : BitVec 26) (x : BitVec 32)
  /-- CLASSIFY (R224): Issue a classifier call -/
  | classify (t : Stamp) (slot : Fin 64) (f : BitVec 26) (x : BitVec 32)
  /-- WAIT (R230): Hold the job until all outstanding calls complete -/
  | wait (t : Stamp) (slot : Fin 64) (f : BitVec 26) (x : BitVec 32)
  /-- VERDICT (R231): Set the instance's verdict word -/
  | verdict (t : Stamp) (slot : Fin 64) (f : BitVec 26) (x : BitVec 32)
  /-- VMERGE (R232): Merge two verdict words by severity -/
  | vmerge (t : Stamp) (slot : Fin 64) (f : BitVec 26) (x : BitVec 32)
  /-- SEMACQ (R233): Acquire a domain semaphore or suspend -/
  | semacq (t : Stamp) (slot : Fin 64) (f : BitVec 26) (x : BitVec 32)
  /-- SEMREL (R233): Release a semaphore once stores are visible -/
  | semrel (t : Stamp) (slot : Fin 64) (f : BitVec 26) (x : BitVec 32)
  /-- CRACQ (R234): Acquire Ferry credits or suspend -/
  | cracq (t : Stamp) (slot : Fin 64) (f : BitVec 26) (x : BitVec 32)
  /-- CRREL (R234): Return Ferry credits -/
  | crrel (t : Stamp) (slot : Fin 64) (f : BitVec 26) (x : BitVec 32)
  /-- YIELD (R235): Pre-emption point that saves the job to a save frame if due -/
  | yield (t : Stamp) (slot : Fin 64) (f : BitVec 26) (x : BitVec 32)
  /-- NOTE (R236): Raise a JOB_NOTE notice -/
  | note (t : Stamp) (slot : Fin 64) (f : BitVec 26) (x : BitVec 32)
  /-- SALM_FENCE (R237): Hold the job until its stores are visible and its notices queued -/
  | salmFence (t : Stamp) (slot : Fin 64) (f : BitVec 26) (x : BitVec 32)
  /-- TRAP (R238): Fault the job with TRAP. Words whose opcode R205 marks — issue here too, and fault the job with ILLEGAL (R200): `w` is the
  whole word, with its opcode, 0x33 for TRAP, in [31:26] -/
  | trap (t : Stamp) (slot : Fin 64) (w : BitVec 32) (x : BitVec 32)
  /-- END (R238): End the job after outstanding calls, delivering result word and verdict -/
  | endJob (t : Stamp) (slot : Fin 64) (f : BitVec 26) (x : BitVec 32)
  /-- LND_CQPUSH (R241): A write of VY_LND_CQPUSH stores the buffered cell in the command queue with its end mark -/
  | lndCqpush (t : Stamp) (data : Word)
  /-- LND_NQPOP (R243): A read of VY_LND_NQPOP removes the head notice-queue cell into the pop buffer -/
  | lndNqpop (t : Stamp)
  /-- CMD_GAP (R244): The decoder removes a command-queue gap marker and raises CMD_GAP -/
  | cmdGap (t : Stamp)
  /-- FENCE (R257): Landing FENCE command, completing once all earlier-stamped notices are queued -/
  | fence (t : Stamp)
  /-- ECHO (R249): Return the command's payload words in its completion -/
  | echo (t : Stamp)
  /-- ADMIT (R139): Allocate and bind a Manifest entry for a new request and return its handle -/
  | admitReq (t : Stamp)
  /-- CANCEL (R142): Cancel a request, or by source the entries being built, dropping its held tokens -/
  | cancel (t : Stamp)
  /-- RETIRE (R145): Free an ended or parked entry and increment its generation -/
  | retire (t : Stamp)
  /-- MIGRATE_OUT (R147): Put an entry into MIG_OUT with hand-over count MIG_H -/
  | migrateOut (t : Stamp)
  /-- MIGRATE_IN (R150): Allocate an entry in MIG_IN to receive a migrated or adopted request -/
  | migrateIn (t : Stamp)
  /-- REUSE (R151): Allocate an entry from a parked prefix, copying pages and re-screening if the epoch differs -/
  | reuse (t : Stamp)
  /-- DOM_OPEN (R253): Open a domain with its initial settings -/
  | domOpen (t : Stamp)
  /-- DOM_CLOSE (R254): Retire every epoch of a domain and close it -/
  | domClose (t : Stamp)
  /-- IMG_LOAD (R255): Start loading, checking and relocating an epoch image into the free epoch slot -/
  | imgLoad (t : Stamp)
  /-- IMG_ACTIVATE (R256): Make a live epoch the domain's active epoch -/
  | imgActivate (t : Stamp)
  /-- IMG_RETIRE (R256): Retire a never-active, unbound live epoch -/
  | imgRetire (t : Stamp)
  /-- TT_SWITCH (R258): Request a Timetable bank switch for a class -/
  | ttSwitch (t : Stamp)
  /-- UNIT_FENCE (R258): Fence and, where possible, swap a unit of a given kind -/
  | unitFence (t : Stamp)
  /-- INJECT (R259): Arm an injection point for COUNT injections from tally AT -/
  | inject (t : Stamp)
  /-- SNAPSHOT (R259): Latch every counter bank for writing to memory -/
  | snapshot (t : Stamp)
  /-- LOG_READ (R335): Start copying Logbook records by SEQ to memory -/
  | logRead (t : Stamp)
  /-- LOG_ARM (R260): Draw a new NONCE and open the 1 s erase window -/
  | logArm (t : Stamp)
  /-- LOG_ERASE (R260): Start the Logbook erase if armed with the current NONCE -/
  | logErase (t : Stamp)
  /-- IMG_LOAD_DONE (R255): The image load's reads, writes and pinned fills finish and the epoch becomes live -/
  | imgLoadDone (t : Stamp) (load : LoadEnd)
  /-- HAND_OVER (R148): All hand-over conditions hold; the MIG_OUT entry is freed and MIGRATE_OUT completes -/
  | handOver (t : Stamp) (idx : BitVec 16)
  /-- MIG_OUT_TIMEOUT (R149): The MIGTO window ends before COMMITTED reaches MIG_H and the migration is abandoned -/
  | migOutTimeout (t : Stamp) (idx : BitVec 16)
  /-- MIGRATE_IN_DONE (R150): Received state is loaded and checked and the MIG_IN entry enters ANSWER or PARKED, or fails -/
  | migrateInDone (t : Stamp) (idx : BitVec 16)
  /-- MIGRATE_IN_TIMEOUT (R150): FERRY state does not arrive within MIGTO and MIGRATE_IN fails with TIMEOUT -/
  | migrateInTimeout (t : Stamp) (idx : BitVec 16)
  /-- REUSE_DONE (R152): The copy and any re-screen end and the REUSE entry becomes PARKED or STOPPED -/
  | reuseDone (t : Stamp) (idx : BitVec 16)
  /-- REPLAY_TRANSFER (R152): A replay transfer from the token log enters a free lane of the token path for re-screen or recovery -/
  | replayTransfer (t : Stamp) (lane : Fin 8) (idx : BitVec 16)
  /-- SNAPSHOT_WRITTEN (R369): All eight lines of a latched snapshot have been written -/
  | snapshotWritten (t : Stamp)
  /-- AUTO_SNAPSHOT (R370): A periodic snapshot falls due and is latched into the ring -/
  | autoSnapshot (t : Stamp)
  /-- LOG_READ_DONE (R335): The requested records have been copied and LOG_READ completes -/
  | logReadDone (t : Stamp)
  /-- LOG_ERASE_DONE (R336): The Logbook erase ends and LOG_ERASE completes, or the device reports an erase error -/
  | logEraseDone (e : DeviceEnd)
  /-- LOG_ARM_WINDOW_END (R260): The erase window opened by LOG_ARM closes -/
  | logArmWindowEnd (t : Stamp)
  /-- INJECTION (R319): An armed injection falls due and applies to its point -/
  | injection (t : Stamp)
  /-- INJECTION_LAPSE (R319): An injection finds no access within 1 ms or its unit is fenced and lapses -/
  | injectionLapse (t : Stamp)
  /-- DETECTOR_TRIP (R314): A detector check fails and its action is applied with a DETECT notice. `place` names the failing word: a pool
  word by its index and a header word by 2^21 + state for 0x02, a mask's line by 512 × identifier + line for 0x03, a state word by its
  Manifest index and a frame's node by 65536 + 64 × frame + node for 0x04, the Manifest index of the request for 0x05, 0x06, 0x0E and
  0x0F, the scratch word for 0x08. `corrected`: a SECDED check corrected one bit (0x02 to 0x04), the Manifest's other copy is good (0x06),
  the line is clean (0x0F) -/
  | detectorTrip (t : Stamp) (code inst : BitVec 8) (place : BitVec 32) (corrected : Bool)
  /-- BLOCK_RESET (R318): After the BLOCK_FAIL record is written the block enters reset and ALIVE falls -/
  | blockReset (t : Stamp)
  /-- SWAPPED (R327): A spare takes the fenced unit's number at the end of the swap time -/
  | swapped (t : Stamp) (kind : BitVec 4) (num : BitVec 6)
  /-- REPAIR_DONE (R315): A REPAIR rewrite from the shadow or the Manifest copy completes -/
  | repairDone (t : Stamp)
  /-- GOLDEN_RUN_DONE (R110): A golden-set run over the units ends, fencing failing units and setting DONE -/
  | goldenRunDone (t : Stamp) (trees : Bool) (bad : BitVec 34)
  /-- RESTORE_END (R321): A recovering request's committed copy has been read back and replay may start -/
  | restoreEnd (t : Stamp) (idx : BitVec 16)
  /-- RECOVERY_LIMIT (R324): VY_WCH_RECLIM passes during recovery and the request fails with CAUSE FAULT -/
  | recoveryLimit (t : Stamp) (idx : BitVec 16)
  /-- FERRY_LINK_PACKET (R302): A LINK packet is received, completing training phase 4 or ordering a lane swap -/
  | ferryLinkPacket (t : Stamp) (group : Fin 8) (p : PktHdr) (peer : LinkEnd) (credits : BitVec 10) (swap : Option (Fin 8))
  /-- OFFER (R307): An OFFER packet is received and waits for a matching MIGRATE_IN -/
  | offer (t : Stamp) (group : Fin 8) (p : PktHdr) (xfer : BitVec 16) (dom : BitVec 8) (src : Handle) (epoch : BitVec 16) (h bytes : BitVec 32)
  /-- STATE (R307): A STATE packet's bytes are written into the receiving entry's pages -/
  | state (t : Stamp) (group : Fin 8) (p : PktHdr) (xfer : BitVec 16) (payload : List Byte)
  /-- STATE_END (R307): STATE_END is received; the CRC and checks are applied and ACK or NAK is sent -/
  | stateEnd (t : Stamp) (group : Fin 8) (p : PktHdr) (xfer : BitVec 16) (crc : BitVec 32)
  /-- ACK (R307): An ACK is received, meeting the delivery condition of a migration -/
  | ack (t : Stamp) (group : Fin 8) (p : PktHdr) (xfer : BitVec 16)
  /-- NAK (R305): A NAK is received, causing retransmission or failing a transfer -/
  | nak (t : Stamp) (group : Fin 8) (p : PktHdr) (xfer : BitVec 16) (len : BitVec 8) (reason : BitVec 8) (last : BitVec 16)
  /-- MIRROR (R308): A MIRROR packet is received and written into the mirror area -/
  | mirror (t : Stamp) (group : Fin 8) (p : PktHdr) (idx : BitVec 16) (off : BitVec 16) (payload : List Byte)
  /-- BEAT (R308): A BEAT packet is received as proof of peer life -/
  | beat (t : Stamp) (group : Fin 8) (p : PktHdr)
  /-- BEAT_SEND (R308): Every 10 µs each up group sends a BEAT -/
  | beatSend (t : Stamp) (group : Fin 8)
  /-- PEER_LOST (R308): No good packet arrives for 1 ms and PEER_LOST is raised -/
  | peerLost (t : Stamp) (group : Fin 8)
  /-- TRAINING_PHASE_TIMEOUT (R302): A training phase exceeds its limit; training restarts and LINK_DOWN is raised -/
  | trainingPhaseTimeout (t : Stamp) (group : Fin 8)
  /-- OFFER_TIMEOUT (R307): A waiting OFFER finds no matching MIGRATE_IN within MIGTO and is refused by NAK -/
  | offerTimeout (t : Stamp) (group : Fin 8) (xfer : BitVec 16)
  /-- XFER_TIMEOUT (R307): No ACK or NAK arrives within twice MIGTO of the OFFER and MIGRATE_OUT completes with TIMEOUT -/
  | xferTimeout (t : Stamp) (idx : BitVec 16)
  /-- COALESCE_WINDOW_END (R332): A coalescing window closes and its record enters staging -/
  | coalesceWindowEnd (t : Stamp)
  /-- LOG_RECORD_WRITE (R329): A device write of staged records completes, or the device reports a program error -/
  | logRecordWrite (e : DeviceEnd)
  /-- SECTOR_ERASE (R329): A NOR sector erase ahead of the head completes, or the device reports an erase error -/
  | sectorErase (e : DeviceEnd)
  /-- LOG_MOUNT (R329): Setting VY_LOG_CTL.EN mounts the Logbook, scanning the device and writing BOOT -/
  | logMount (t : Stamp) (data : Word)
  /-- POWER_FAIL_WARNING (R334): PFW_N falls; coalescing closes and POWER_FAIL and staged records are written. Its rise comes here too -/
  | powerFailWarning (e : PfwEdge)
  /-- POWER_UP (R346): PG_LOGIC rises and a POWER reset begins -/
  | powerUp (t : Stamp)
  /-- POWER_DOWN (R285): PG_LOGIC falls and the block becomes unpowered -/
  | powerDown (t : Stamp)
  /-- ABSENT (R285): The ABSENT strap marks the block absent and the boundary idles -/
  | absent (t : Stamp) (strap : Bool)
  /-- ARRAY_RESET (R349): PG_ARRAY falls with logic powered and the block performs an ARRAY reset -/
  | arrayReset (t : Stamp)
  /-- PG_ARRAY_RISE (R349): PG_ARRAY returns and the block starts a SOFT reset with BIST by itself -/
  | pgArrayRise (t : Stamp)
  /-- PIN_RESET (R346): RST_N falls and the block enters a PIN reset -/
  | pinReset (t : Stamp)
  /-- RST_N_RELEASE (R286): RST_N rises; BLKNUM is sampled and BIST starts once the PLL is locked -/
  | rstNRelease (t : Stamp) (blknum : BitVec 6)
  /-- PLL_LOCK (R341): The PLL locks and the port clocks and tally start -/
  | pllLock (t : Stamp)
  /-- PLL_LOCK_LOSS (R341): The PLL loses lock, tripping detector 0x12 in service or clearing LOCK in reset -/
  | pllLockLoss (t : Stamp)
  /-- GT_STROBE (R344): A global-time strobe aligns the tally or is checked against it -/
  | gtStrobe (t : Stamp) (val : Word)
  /-- BIST_DONE (R351): The SRAM self-test ends, fencing failed units or setting FATAL -/
  | bistDone (t : Stamp) (lanes : BitVec 9) (cores : BitVec 18) (tiles : BitVec 34) (engines : BitVec 9) (fst : BitVec 2) (text : BitVec 22) (others : BitVec 8)
  /-- SOFT_RESET (R350): A keyed write of VY_RST_CTL.SOFT starts a SOFT reset -/
  | softReset (t : Stamp) (data : Word)
  /-- SOFT_RESET_END (R350): The SOFT reset's Logbook step ends and registers reset and BIST run -/
  | softResetEnd (t : Stamp)
  /-- TOK_SWAP (R41): VY_TOK_SWAP.GO starts a fence and swap of a token lane -/
  | tokSwap (t : Stamp) (data : Word)
  /-- TXT_FENCE (R86): VY_TXT_FENCE.GO fences a text unit -/
  | txtFence (t : Stamp) (data : Word)
  /-- CLS_SWAP (R111): VY_CLS_SWAP.GO fences a tile for swap without job fault -/
  | clsSwap (t : Stamp) (data : Word)
  /-- CLS_GOLD (R110): VY_CLS_GOLD.GO runs the classifier golden set -/
  | clsGold (t : Stamp) (data : Word)
  /-- TRE_SWAP (R134): VY_TRE_SWAP.GO fences a tree engine for swap -/
  | treSwap (t : Stamp) (data : Word)
  /-- FST_FENCE (R134): VY_FST_FENCE.GO fences a front-stage unit -/
  | fstFence (t : Stamp) (data : Word)
  /-- TRE_GOLD (R130): VY_TRE_GOLD.GO runs the tree golden set -/
  | treGold (t : Stamp) (data : Word)
  /-- PEAK_CLR (R64): VY_RAMP_CTL.PEAK_CLR resets the Hold peak to the current level -/
  | peakClr (t : Stamp) (data : Word)
  /-- TT_CLS_SW (R184): Writing VY_TT_CLSn with SW requests a Timetable bank switch -/
  | ttClsSw (t : Stamp) (cls : Fin 4) (data : Word)
  /-- PIL_SWAP (R317): VY_PIL_SWAP.GO starts a host fence and swap of a Pilot core -/
  | pilSwap (t : Stamp) (data : Word)
  /-- SC_FLUSH (R294): VY_SC_CTL.FLUSH flushes the selected entry's state -/
  | scFlush (t : Stamp) (data : Word)
  /-- RGN_D0_WRITE (R288): A VY_RGN_D0 write stages a region descriptor word -/
  | rgnD0Write (t : Stamp) (data : Word)
  /-- RGN_D1_WRITE (R288): A VY_RGN_D1 write commits the staged D0 and D1 to the selected region descriptor -/
  | rgnD1Write (t : Stamp) (data : Word)
  /-- FRY_SWAP (R303): VY_FRY_SWAP.GO fences a Ferry lane and swaps in lane 8 -/
  | frySwap (t : Stamp) (data : Word)
  /-- FRY_TRAINING_START (R302): Setting VY_FRY_CTL.EN starts training of the groups -/
  | fryTrainingStart (t : Stamp) (data : Word)
  /-- LND_FLUSH_CQ (R246): VY_LND_FLUSH.CQ discards whole waiting command messages -/
  | lndFlushCq (t : Stamp) (data : Word)
  /-- LND_FLUSH_NQ (R246): VY_LND_FLUSH.NQ discards whole waiting notice messages and reservations -/
  | lndFlushNq (t : Stamp) (data : Word)
  /-- MAN_DATA0_READ (R154): A read of VY_MAN_DATA0 latches all eight words of the selected entry -/
  | manData0Read (t : Stamp)
  /-- INJ_DISARM (R340): VY_INJ_DISARM.GO disarms the pending INJECT, completing it CANCELLED -/
  | injDisarm (t : Stamp) (data : Word)
  /-- CNT_CLR (R370): VY_CNT_CLR zeroes the values and OVF bits of selected banks -/
  | cntClr (t : Stamp) (data : Word)
  /-- BAD_REG_ACCESS (R7): An access to an unimplemented offset reads zero, ignores writes and counts -/
  | badRegAccess (t : Stamp) (write : Bool) (off : BitVec 17) (data : Word)
  /-- REG_WRITE (R359): A write to a register with no behaviour of its own updates fields or is ignored and counted -/
  | regWrite (t : Stamp) (off : BitVec 17) (data : Word)
  /-- BAD_OP (R242): The decoder accepts a whole message whose OPCODE is undefined or whose header cannot be read, and answers it with BAD_OP, POISON or FRAME, or discards it as misrouted -/
  | badOp (t : Stamp)
  /-- TRAINING_PHASE_COMPLETE (R302): A Ferry group's training phase 1, 2 or 3 (signal detect, receiver adaptation, codeword lock and deskew) completes and the next phase begins -/
  | trainingPhaseComplete (t : Stamp) (group : Fin 8)
  /-- LOG_MOUNTED (R329): The mount's SFDP read and forward scan of the NVM device end; SEQ and BOOT are set, the BOOT record is written and LOG_MOUNTED is raised -/
  | logMounted (t : Stamp) (ok : Bool) (bytes : BitVec 32)
  /-- WRITE_TIME_EXCEEDED (R328): A device program or erase does not finish within its profile's write time, and the Logbook stops with LOG_FAIL reason 010 -/
  | writeTimeExceeded (t : Stamp)
  /-- WRAPPER_INSTRUCTION_UPDATE (R283): The IEEE 1500 wrapper takes a new instruction, or WRSTN falls and sets WS_BYPASS, so ALIVE and the functional outputs follow the wrapper cells or return to the block. -/
  | wrapperInstructionUpdate (t : Stamp) (u : WrapperUpdate)
  /-- BS_MODE (R284): The die's BS_MODE input changes, so the 1149.1 boundary cells take over the NVM pins from the Logbook or hand them back. -/
  | bsMode (t : Stamp) (u : BsUpdate)
deriving DecidableEq, Repr

end Sys2Proof
end

