-- ==== Sys2Proof/WellFormed.lean ====
section
/-! DEFINITION. WellFormed.lean: the commands that the block's ports, packets and instruction words can carry; what the operand
types cannot bound is checked here. The meanings are total and take ill-formed commands too. -/

namespace Sys2Proof

/-- A stamp is a value of the 64-bit tally (00_scope, "the tally is the block's 64-bit time counter"). -/
def stampOk (t : Stamp) : Bool := decide (t < 2 ^ 64)
/-- A Salm instruction has an extension word only with X = 1 (09_salm_model R201, R203). -/
def extOk (f : BitVec 26) (x : BitVec 32) : Bool := f.getLsbD 25 || decide (x = 0)
/-- A Ferry packet carries 1 to 240 payload bytes (13_memory_ferry R304). -/
def payloadOk (p : List Byte) : Bool := decide (0 < p.length) && decide (p.length ≤ 240)
/-- A mirrored byte lies in the 64 KiB of its slot (R308). -/
def mirrorOk (off : BitVec 16) (p : List Byte) : Bool := decide (off.toNat + p.length ≤ 65536)
/-- A kind of unit that R258 lists (11_landing). -/
def kindOk (k : BitVec 4) : Bool := decide (k.toNat ≤ 6)
/-- A register read carries no data. -/
def readOk (write : Bool) (data : Word) : Bool := write || decide (data = 0)

/-- TRAP's opcode, or one that R205 marks —. -/
def trapOk (op : BitVec 6) : Bool :=
  let n := op.toNat
  decide (n = 0x33) || decide (n = 0x00) || (decide (0x1A ≤ n) && decide (n ≤ 0x1F)) || decide (n = 0x26) || decide (n = 0x27) ||
    decide (n = 0x2A) || decide (n = 0x2B) || (decide (0x34 ≤ n) && decide (n ≤ 0x3E))

/-- Can the command be presented? -/
def Instr.wf : Instr → Bool
  | .token t _ _ _ _ => stampOk t
  | .node t _ _ _ _ _ _ _ => stampOk t
  | .accept t _ _ _ _ _ => stampOk t
  | .prime t _ _ _ => stampOk t
  | .maskRead t _ _ _ _ => stampOk t
  | .promptIn t _ => stampOk t
  | .tokenOutWord t _ => stampOk t
  | .verdictOutWord t => stampOk t
  | .memoryRequest t _ => stampOk t
  | .memoryResponse t _ _ _ _ _ _ => stampOk t
  | .closeTime t _ => stampOk t
  | .deadlineExpiry t _ => stampOk t
  | .promptDeadlineExpiry t _ => stampOk t
  | .release t _ => stampOk t
  | .graphStart t => stampOk t
  | .dependenceResolve t _ => stampOk t
  | .jobPlace t => stampOk t
  | .slotBoundary t _ => stampOk t
  | .bankSwitch t _ => stampOk t
  | .overrun t _ => stampOk t
  | .holdlim t _ => stampOk t
  | .callStart t _ => stampOk t
  | .callComplete t _ _ => stampOk t
  | .viewBuild t _ => stampOk t
  | .semGrant t _ _ => stampOk t
  | .creditGrant t _ => stampOk t
  | .alu t _ f x => stampOk t && extOk f x
  | .addi t _ f x => stampOk t && extOk f x
  | .andi t _ f x => stampOk t && extOk f x
  | .ori t _ f x => stampOk t && extOk f x
  | .xori t _ f x => stampOk t && extOk f x
  | .shi t _ f x => stampOk t && extOk f x
  | .muldiv t _ f x => stampOk t && extOk f x
  | .li t _ f x => stampOk t && extOk f x
  | .lih t _ f x => stampOk t && extOk f x
  | .extr t _ f x => stampOk t && extOk f x
  | .cmp t _ f x => stampOk t && extOk f x
  | .cmpi t _ f x => stampOk t && extOk f x
  | .plog t _ f x => stampOk t && extOk f x
  | .fpu t _ f x => stampOk t && extOk f x
  | .fcmp t _ f x => stampOk t && extOk f x
  | .ld t _ f x => stampOk t && extOk f x
  | .lds t _ f x => stampOk t && extOk f x
  | .st t _ f x => stampOk t && extOk f x
  | .ldm t _ f x => stampOk t && extOk f x
  | .mapw t _ f x => stampOk t && extOk f x
  | .post t _ f x => stampOk t && extOk f x
  | .skipTasks t _ f x => stampOk t && extOk f x
  | .rds t _ f x => stampOk t && extOk f x
  | .br t _ f x => stampOk t && extOk f x
  | .jal t _ f x => stampOk t && extOk f x
  | .matchCall t _ f x => stampOk t && extOk f x
  | .xlate t _ f x => stampOk t && extOk f x
  | .feature t _ f x => stampOk t && extOk f x
  | .treeCall t _ f x => stampOk t && extOk f x
  | .classify t _ f x => stampOk t && extOk f x
  | .wait t _ f x => stampOk t && extOk f x
  | .verdict t _ f x => stampOk t && extOk f x
  | .vmerge t _ f x => stampOk t && extOk f x
  | .semacq t _ f x => stampOk t && extOk f x
  | .semrel t _ f x => stampOk t && extOk f x
  | .cracq t _ f x => stampOk t && extOk f x
  | .crrel t _ f x => stampOk t && extOk f x
  | .yield t _ f x => stampOk t && extOk f x
  | .note t _ f x => stampOk t && extOk f x
  | .salmFence t _ f x => stampOk t && extOk f x
  | .trap t _ w x => stampOk t && extOk (w.setWidth 26) x && trapOk (w.extractLsb' 26 6)
  | .endJob t _ f x => stampOk t && extOk f x
  | .lndCqpush t _ => stampOk t
  | .lndNqpop t => stampOk t
  | .cmdGap t => stampOk t
  | .fence t => stampOk t
  | .echo t => stampOk t
  | .admitReq t => stampOk t
  | .cancel t => stampOk t
  | .retire t => stampOk t
  | .migrateOut t => stampOk t
  | .migrateIn t => stampOk t
  | .reuse t => stampOk t
  | .domOpen t => stampOk t
  | .domClose t => stampOk t
  | .imgLoad t => stampOk t
  | .imgActivate t => stampOk t
  | .imgRetire t => stampOk t
  | .ttSwitch t => stampOk t
  | .unitFence t => stampOk t
  | .inject t => stampOk t
  | .snapshot t => stampOk t
  | .logRead t => stampOk t
  | .logArm t => stampOk t
  | .logErase t => stampOk t
  | .imgLoadDone t _ => stampOk t
  | .handOver t _ => stampOk t
  | .migOutTimeout t _ => stampOk t
  | .migrateInDone t _ => stampOk t
  | .migrateInTimeout t _ => stampOk t
  | .reuseDone t _ => stampOk t
  | .replayTransfer t _ _ => stampOk t
  | .snapshotWritten t => stampOk t
  | .autoSnapshot t => stampOk t
  | .logReadDone t => stampOk t
  | .logEraseDone e => stampOk e.t
  | .logArmWindowEnd t => stampOk t
  | .injection t => stampOk t
  | .injectionLapse t => stampOk t
  | .detectorTrip t _ _ _ _ => stampOk t
  | .blockReset t => stampOk t
  | .swapped t kind _ => stampOk t && kindOk kind
  | .repairDone t => stampOk t
  | .goldenRunDone t _ _ => stampOk t
  | .restoreEnd t _ => stampOk t
  | .recoveryLimit t _ => stampOk t
  | .ferryLinkPacket t _ _ _ _ _ => stampOk t
  | .offer t _ _ _ _ _ _ _ _ => stampOk t
  | .state t _ _ _ payload => stampOk t && payloadOk payload
  | .stateEnd t _ _ _ _ => stampOk t
  | .ack t _ _ _ => stampOk t
  | .nak t _ _ _ _ _ _ => stampOk t
  | .mirror t _ _ _ off payload => stampOk t && payloadOk payload && mirrorOk off payload
  | .beat t _ _ => stampOk t
  | .beatSend t _ => stampOk t
  | .peerLost t _ => stampOk t
  | .trainingPhaseTimeout t _ => stampOk t
  | .offerTimeout t _ _ => stampOk t
  | .xferTimeout t _ => stampOk t
  | .coalesceWindowEnd t => stampOk t
  | .logRecordWrite e => stampOk e.t
  | .sectorErase e => stampOk e.t
  | .logMount t _ => stampOk t
  | .powerFailWarning e => stampOk e.t
  | .powerUp t => stampOk t
  | .powerDown t => stampOk t
  | .absent t _ => stampOk t
  | .arrayReset t => stampOk t
  | .pgArrayRise t => stampOk t
  | .pinReset t => stampOk t
  | .rstNRelease t _ => stampOk t
  | .pllLock t => stampOk t
  | .pllLockLoss t => stampOk t
  | .gtStrobe t _ => stampOk t
  | .bistDone t _ _ _ _ _ _ _ => stampOk t
  | .softReset t _ => stampOk t
  | .softResetEnd t => stampOk t
  | .tokSwap t _ => stampOk t
  | .txtFence t _ => stampOk t
  | .clsSwap t _ => stampOk t
  | .clsGold t _ => stampOk t
  | .treSwap t _ => stampOk t
  | .fstFence t _ => stampOk t
  | .treGold t _ => stampOk t
  | .peakClr t _ => stampOk t
  | .ttClsSw t _ _ => stampOk t
  | .pilSwap t _ => stampOk t
  | .scFlush t _ => stampOk t
  | .rgnD0Write t _ => stampOk t
  | .rgnD1Write t _ => stampOk t
  | .frySwap t _ => stampOk t
  | .fryTrainingStart t _ => stampOk t
  | .lndFlushCq t _ => stampOk t
  | .lndFlushNq t _ => stampOk t
  | .manData0Read t => stampOk t
  | .injDisarm t _ => stampOk t
  | .cntClr t _ => stampOk t
  | .badRegAccess t write _ data => stampOk t && readOk write data
  | .regWrite t _ _ => stampOk t
  | .badOp t => stampOk t
  | .trainingPhaseComplete t _ => stampOk t
  | .logMounted t _ _ => stampOk t
  | .writeTimeExceeded t => stampOk t
  | .wrapperInstructionUpdate t _ => stampOk t
  | .bsMode t _ => stampOk t

end Sys2Proof
end

