-- ==== Sys2Proof/Decode.lean ====
section
/-! DEFINITION. Decode.lean: command words. The rows of spec/opcode_table.json give no bits, so no word spells a command there;
the Salm instructions (09_salm_model R201, R203-R205) and the Token In transfers (02_token_tier R19) have words of their own, read and
written here. -/

namespace Sys2Proof

/-- No row of the table gives bits. -/
def decodeTableWord (_nbits _w : Nat) : Option Instr := none

/-- A Salm instruction without its operands. -/
abbrev SalmCtor := Stamp → Fin 64 → BitVec 26 → BitVec 32 → Instr

/-- The instruction of an opcode (R205). TRAP carries its word: those marked — issue as words of it, and are ILLEGAL. -/
def salmOp (op : BitVec 6) : SalmCtor :=
  match op.toNat with
  | 0x01 => .alu
  | 0x02 => .addi
  | 0x03 => .andi
  | 0x04 => .ori
  | 0x05 => .xori
  | 0x06 => .shi
  | 0x07 => .muldiv
  | 0x08 => .li
  | 0x09 => .lih
  | 0x0A => .extr
  | 0x0B => .cmp
  | 0x0C => .cmpi
  | 0x0D => .plog
  | 0x0E => .fpu
  | 0x0F => .fcmp
  | 0x10 => .ld
  | 0x11 => .lds
  | 0x12 => .st
  | 0x13 => .ldm
  | 0x14 => .mapw
  | 0x15 => .post
  | 0x16 => .skipTasks
  | 0x17 => .rds
  | 0x18 => .br
  | 0x19 => .jal
  | 0x20 => .matchCall
  | 0x21 => .xlate
  | 0x22 => .feature
  | 0x23 => .treeCall
  | 0x24 => .classify
  | 0x25 => .wait
  | 0x28 => .verdict
  | 0x29 => .vmerge
  | 0x2C => .semacq
  | 0x2D => .semrel
  | 0x2E => .cracq
  | 0x2F => .crrel
  | 0x30 => .yield
  | 0x31 => .note
  | 0x32 => .salmFence
  | 0x3F => .endJob
  | _ => fun t slot f x => .trap t slot (op ++ f) x

/-- What the job slot issues at stamp t when its first word is w and the word after it x (R201, R203). -/
def salmDecode (t : Stamp) (slot : Fin 64) (w x : BitVec 32) : Instr :=
  salmOp (BitVec.ofNat 6 (w.toNat / 2 ^ 26)) t slot (w.setWidth 26) (if w.getLsbD 25 then x else 0)

/-- Opcode, stamp, slot and operands of a Salm instruction; none for the other commands. -/
def salmParts : Instr → Option (BitVec 6 × Stamp × Fin 64 × BitVec 26 × BitVec 32)
  | .token _ _ _ _ _ => none
  | .node _ _ _ _ _ _ _ _ => none
  | .accept _ _ _ _ _ _ => none
  | .prime _ _ _ _ => none
  | .maskRead _ _ _ _ _ => none
  | .promptIn _ _ => none
  | .tokenOutWord _ _ => none
  | .verdictOutWord _ => none
  | .memoryRequest _ _ => none
  | .memoryResponse _ _ _ _ _ _ _ => none
  | .closeTime _ _ => none
  | .deadlineExpiry _ _ => none
  | .promptDeadlineExpiry _ _ => none
  | .release _ _ => none
  | .graphStart _ => none
  | .dependenceResolve _ _ => none
  | .jobPlace _ => none
  | .slotBoundary _ _ => none
  | .bankSwitch _ _ => none
  | .overrun _ _ => none
  | .holdlim _ _ => none
  | .callStart _ _ => none
  | .callComplete _ _ _ => none
  | .viewBuild _ _ => none
  | .semGrant _ _ _ => none
  | .creditGrant _ _ => none
  | .alu t slot f x => some (0x01#6, t, slot, f, x)
  | .addi t slot f x => some (0x02#6, t, slot, f, x)
  | .andi t slot f x => some (0x03#6, t, slot, f, x)
  | .ori t slot f x => some (0x04#6, t, slot, f, x)
  | .xori t slot f x => some (0x05#6, t, slot, f, x)
  | .shi t slot f x => some (0x06#6, t, slot, f, x)
  | .muldiv t slot f x => some (0x07#6, t, slot, f, x)
  | .li t slot f x => some (0x08#6, t, slot, f, x)
  | .lih t slot f x => some (0x09#6, t, slot, f, x)
  | .extr t slot f x => some (0x0A#6, t, slot, f, x)
  | .cmp t slot f x => some (0x0B#6, t, slot, f, x)
  | .cmpi t slot f x => some (0x0C#6, t, slot, f, x)
  | .plog t slot f x => some (0x0D#6, t, slot, f, x)
  | .fpu t slot f x => some (0x0E#6, t, slot, f, x)
  | .fcmp t slot f x => some (0x0F#6, t, slot, f, x)
  | .ld t slot f x => some (0x10#6, t, slot, f, x)
  | .lds t slot f x => some (0x11#6, t, slot, f, x)
  | .st t slot f x => some (0x12#6, t, slot, f, x)
  | .ldm t slot f x => some (0x13#6, t, slot, f, x)
  | .mapw t slot f x => some (0x14#6, t, slot, f, x)
  | .post t slot f x => some (0x15#6, t, slot, f, x)
  | .skipTasks t slot f x => some (0x16#6, t, slot, f, x)
  | .rds t slot f x => some (0x17#6, t, slot, f, x)
  | .br t slot f x => some (0x18#6, t, slot, f, x)
  | .jal t slot f x => some (0x19#6, t, slot, f, x)
  | .matchCall t slot f x => some (0x20#6, t, slot, f, x)
  | .xlate t slot f x => some (0x21#6, t, slot, f, x)
  | .feature t slot f x => some (0x22#6, t, slot, f, x)
  | .treeCall t slot f x => some (0x23#6, t, slot, f, x)
  | .classify t slot f x => some (0x24#6, t, slot, f, x)
  | .wait t slot f x => some (0x25#6, t, slot, f, x)
  | .verdict t slot f x => some (0x28#6, t, slot, f, x)
  | .vmerge t slot f x => some (0x29#6, t, slot, f, x)
  | .semacq t slot f x => some (0x2C#6, t, slot, f, x)
  | .semrel t slot f x => some (0x2D#6, t, slot, f, x)
  | .cracq t slot f x => some (0x2E#6, t, slot, f, x)
  | .crrel t slot f x => some (0x2F#6, t, slot, f, x)
  | .yield t slot f x => some (0x30#6, t, slot, f, x)
  | .note t slot f x => some (0x31#6, t, slot, f, x)
  | .salmFence t slot f x => some (0x32#6, t, slot, f, x)
  | .trap t slot w x => some (w.extractLsb' 26 6, t, slot, w.setWidth 26, x)
  | .endJob t slot f x => some (0x3F#6, t, slot, f, x)
  | .lndCqpush _ _ => none
  | .lndNqpop _ => none
  | .cmdGap _ => none
  | .fence _ => none
  | .echo _ => none
  | .admitReq _ => none
  | .cancel _ => none
  | .retire _ => none
  | .migrateOut _ => none
  | .migrateIn _ => none
  | .reuse _ => none
  | .domOpen _ => none
  | .domClose _ => none
  | .imgLoad _ => none
  | .imgActivate _ => none
  | .imgRetire _ => none
  | .ttSwitch _ => none
  | .unitFence _ => none
  | .inject _ => none
  | .snapshot _ => none
  | .logRead _ => none
  | .logArm _ => none
  | .logErase _ => none
  | .imgLoadDone _ _ => none
  | .handOver _ _ => none
  | .migOutTimeout _ _ => none
  | .migrateInDone _ _ => none
  | .migrateInTimeout _ _ => none
  | .reuseDone _ _ => none
  | .replayTransfer _ _ _ => none
  | .snapshotWritten _ => none
  | .autoSnapshot _ => none
  | .logReadDone _ => none
  | .logEraseDone _ => none
  | .logArmWindowEnd _ => none
  | .injection _ => none
  | .injectionLapse _ => none
  | .detectorTrip _ _ _ _ _ => none
  | .blockReset _ => none
  | .swapped _ _ _ => none
  | .repairDone _ => none
  | .goldenRunDone _ _ _ => none
  | .restoreEnd _ _ => none
  | .recoveryLimit _ _ => none
  | .ferryLinkPacket _ _ _ _ _ _ => none
  | .offer _ _ _ _ _ _ _ _ _ => none
  | .state _ _ _ _ _ => none
  | .stateEnd _ _ _ _ _ => none
  | .ack _ _ _ _ => none
  | .nak _ _ _ _ _ _ _ => none
  | .mirror _ _ _ _ _ _ => none
  | .beat _ _ _ => none
  | .beatSend _ _ => none
  | .peerLost _ _ => none
  | .trainingPhaseTimeout _ _ => none
  | .offerTimeout _ _ _ => none
  | .xferTimeout _ _ => none
  | .coalesceWindowEnd _ => none
  | .logRecordWrite _ => none
  | .sectorErase _ => none
  | .logMount _ _ => none
  | .powerFailWarning _ => none
  | .powerUp _ => none
  | .powerDown _ => none
  | .absent _ _ => none
  | .arrayReset _ => none
  | .pgArrayRise _ => none
  | .pinReset _ => none
  | .rstNRelease _ _ => none
  | .pllLock _ => none
  | .pllLockLoss _ => none
  | .gtStrobe _ _ => none
  | .bistDone _ _ _ _ _ _ _ _ => none
  | .softReset _ _ => none
  | .softResetEnd _ => none
  | .tokSwap _ _ => none
  | .txtFence _ _ => none
  | .clsSwap _ _ => none
  | .clsGold _ _ => none
  | .treSwap _ _ => none
  | .fstFence _ _ => none
  | .treGold _ _ => none
  | .peakClr _ _ => none
  | .ttClsSw _ _ _ => none
  | .pilSwap _ _ => none
  | .scFlush _ _ => none
  | .rgnD0Write _ _ => none
  | .rgnD1Write _ _ => none
  | .frySwap _ _ => none
  | .fryTrainingStart _ _ => none
  | .lndFlushCq _ _ => none
  | .lndFlushNq _ _ => none
  | .manData0Read _ => none
  | .injDisarm _ _ => none
  | .cntClr _ _ => none
  | .badRegAccess _ _ _ _ => none
  | .regWrite _ _ _ => none
  | .badOp _ => none
  | .trainingPhaseComplete _ _ => none
  | .logMounted _ _ _ => none
  | .writeTimeExceeded _ => none
  | .wrapperInstructionUpdate _ _ => none
  | .bsMode _ _ => none

/-- The words of a Salm instruction: its first word, and the extension word where X = 1 (R201, R203). -/
def salmEncode (i : Instr) : Option (List (BitVec 32)) :=
  (salmParts i).map fun p =>
    (p.1 ++ p.2.2.2.1) :: (if p.2.2.2.1.getLsbD 25 then [p.2.2.2.2] else [])

/-! ### Token words (02_token_tier R19) -/

/-- The command that a 96-bit Token In word is, captured at t on a lane: KIND stands in [51:50]. -/
def tokenDecode (t : Stamp) (lane : Fin 8) (w : BitVec 96) : Instr :=
  let h : Handle := w.extractLsb' 0 32
  let tok := w.extractLsb' 32 18
  let node := w.extractLsb' 52 6
  let resv := w.extractLsb' 66 30
  match (w.extractLsb' 50 2).toNat with
  | 0 => .token t lane h tok resv
  | 1 => .node t lane h tok node (w.extractLsb' 58 6) (w.getLsbD 64) resv
  | 2 => .accept t lane h node (w.getLsbD 65) resv
  | _ => .prime t lane h resv

/-- A word from its fields, the highest first. -/
def tokenWord (resv : BitVec 30) (noneBit root : Bool) (parent node : BitVec 6) (kind : BitVec 2) (tok : BitVec 18) (h : Handle) : BitVec 96 :=
  resv ++ BitVec.ofBool noneBit ++ BitVec.ofBool root ++ parent ++ node ++ kind ++ tok ++ h

/-- The word of a transfer with stamp and lane; fields that its KIND does not use are zero. -/
def tokenEncode : Instr → Option (Stamp × Fin 8 × BitVec 96)
  | .token t lane h tok resv => some (t, lane, tokenWord resv false false 0 0 0 tok h)
  | .node t lane h tok node parent root resv => some (t, lane, tokenWord resv false root parent node 1 tok h)
  | .accept t lane h node noneBit resv => some (t, lane, tokenWord resv noneBit false 0 node 2 0 h)
  | .prime t lane h resv => some (t, lane, tokenWord resv false false 0 0 3 0 h)
  | _ => none

end Sys2Proof
end

