-- ==== Sys2Proof/Config.lean ====
section
/-! DEFINITION. Config.lean: the values the manual leaves open, as constants without a body (log entry 2). No proof can see
them; a statement about one holds for every value. The `Nat` argument is `State.fresh`, which each use advances. -/

namespace Sys2Proof.Config

/-- The NONCE that a LOG_ARM draws afresh (11_landing R260 fixes no value). -/
opaque nonce : Nat → BitVec 16
/-- Whether an unordered load sees the newer of two values (09_salm_model R193: "either the old value or the new one"). -/
opaque seesNew : Nat → Bool
/-- The transfer number a sender chooses (13_memory_ferry R304, XFER). -/
opaque xferNum : Nat → BitVec 16
/-- Which free instance record a starting graph takes (08_graphs_timetable R160 says only "one that is free"). -/
opaque instPick : Nat → Nat
/-- ACT, ESC and POS of an end word (03_ramp_and_hold R53 gives them no value there). -/
opaque endAct : Nat → BitVec 3
opaque endEsc : Nat → Bool
opaque endPos : Nat → BitVec 16

/-- The CRC-32C that a failing unit obtained in a golden run, and the expected one (14_isolation_faults_logbook R331; 05 R110 and 06
R130 give the golden set no layout). -/
opaque goldCrc : Nat → BitVec 32
opaque goldExpected : Nat → BitVec 32
/-- Which protected word an injected FLIP meets, or which request's response an injected ERR: the manual fixes only that it is the next one
at the point (R319). -/
opaque injVictim : Nat → Nat
/-- What a device write that power loss or a reset interrupts leaves: nothing (0), a torn slot (1), or else the whole record
(12_boundary R280; 14_isolation_faults_logbook R334). -/
opaque tornWrite : Nat → Nat
/-- The payload bytes of a LINK, OFFER, STATE_END or MIRROR packet, whose fields the manual names without their places (13_memory_ferry
R302, R307, R308): applied to TYPE and the fields. -/
opaque payload : List Nat → List (BitVec 8)
/-- DATA0 of an ERASED record when the device holds no record (R331 names a first and a last SEQ). -/
opaque noneErased : Nat → BitVec 64

end Sys2Proof.Config
end

