-- ==== Sys2Proof/Machine/State.lean ====
section
/-! DEFINITION. State.lean: every piece of state the manual gives the block, as plain data, and the state right after a POWER
reset that has ended (15_clocks_reset_update R346, R347, R352). Numbers, counts, indices and stamps are naturals; what the
manual treats as bits is a bit vector; tables of many like things are lists of (index, record) pairs in which an index that
is not listed has the record the accessor of Ops.lean names. -/

namespace Sys2Proof.Machine

/-- A sparse table: pairs of index and record, indices rising. -/
abbrev Tab (α : Type) := List (Nat × α)

/-! ### Common vocabulary -/

/-- A verdict's action (03 R45), in rising severity. -/
inductive Act where
  | pass | flag | redact | replace | stop
deriving DecidableEq, Repr

/-- Entry states, in code order (07 R137). -/
inductive EState where
  | free | admitted | prompt | answer | migOut | migIn | parked | reuse | recover | stopped | cancelled | ended
deriving DecidableEq, Repr

/-- A token-tier verdict (02 R28). -/
structure TokVerdict where
  act  : Act
  esc  : Bool
  span : Nat
deriving DecidableEq, Repr

/-- A token on its way into the held sequence with its own verdict (02 R37). -/
structure PathTok where
  tok : Nat
  v   : TokVerdict
deriving DecidableEq, Repr

/-- The four automaton states of a request (02, slots A0-A3). -/
structure Four where
  a0 : Nat
  a1 : Nat
  a2 : Nat
  a3 : Nat
deriving DecidableEq, Repr

/-- A cell of the Landing channel: eight words (11 R239). -/
abbrev CellWords := List Word

/-! ### Text, feature and classifier state of a request (04 R80, 06 R118, 05 R107) -/

/-- Retokenisation carry of one target; `seq = none` is the initial state. -/
structure Carry where
  bytes : List Byte
  seq   : Option Nat
deriving DecidableEq, Repr

/-- Pattern state of one set; `state = none` is START. -/
structure Pat where
  state : Option Nat
  seq   : Option Nat
deriving DecidableEq, Repr

/-- The text state of one stream (R80). -/
structure TextState where
  utf8    : List Byte
  carries : List Carry
  pats    : List Pat
  bad     : Nat
  fffd    : Nat
deriving DecidableEq, Repr

/-- One accumulator (R118). -/
structure Accum where
  value : F32
  n     : Nat
deriving DecidableEq, Repr

/-- The accumulators of one stream and plan with their SEQ (R118). -/
structure AccState where
  accs : List Accum
  seq  : Option Nat
deriving DecidableEq, Repr

/-- A classifier record (05, "Classifier state and speculation"). -/
structure KvRec where
  len : Nat
  fin : Nat
  seq : Option Nat
deriving DecidableEq, Repr

/-- State that a pass reached and that commits when its graph ends normally (R81, R107, R119). -/
inductive Work where
  | carry (tgt : Nat) (bytes : List Byte)
  | pat   (set state : Nat)
  | acc   (plan : Nat) (accs : List Accum)
  | kv    (model len : Nat)
deriving DecidableEq, Repr

/-! ### Ramp records (03) -/

/-- A held token (R42, R47). -/
structure Held where
  tok : Nat
  pos : Nat
  act : Act
  esc : Bool
deriving DecidableEq, Repr

/-- A domain's Ramp settings (R63), latched by a chunk when it opens. -/
structure RampSet where
  chunk    : Nat
  passthru : Bool
  miss     : Bool
  missEsc  : Bool
  deadline : Nat
  close    : Nat
deriving DecidableEq, Repr

/-- A chunk (R43, R44, R52). -/
structure Chunk where
  num     : Nat
  f       : Stamp
  set     : RampSet
  toks    : List Held
  count   : Nat            -- tokens that joined, held or already released (pass-through)
  all     : List Nat       -- the chunk's tokens in held order, for the view (04 R74)
  closed  : Option Stamp
  verdict : Option Stamp   -- stamp of the accepted graph verdict
  judged  : Option Stamp
  missed  : Bool
  esc     : Bool           -- ESC bits that reached the chunk, covered or not (R47)
  floor   : Act            -- least merged action (R55 FLAG)
  isEoa   : Bool           -- holds STOP_TOK
deriving DecidableEq, Repr

/-- What became of a chunk that is no longer held (R45, R56). -/
inductive Fate where
  | judged | missFlag | dropped | passthru
deriving DecidableEq, Repr

/-- A chunk that is no longer held: its fate and the end of its release window. -/
structure Past where
  fate  : Fate
  wend  : Stamp
  taken : Bool                 -- it has accepted its one graph verdict (R45)
deriving DecidableEq, Repr

/-- A stop of the request (R50): the cause code of R53 and its stamp. -/
structure Stop where
  cause : Nat
  stamp : Stamp
deriving DecidableEq, Repr

/-- A speculative step that is open (02 R35-R38). -/
structure Step where
  lane  : Nat
  frame : Nat
  gen   : Nat
  next  : Nat
deriving DecidableEq, Repr

/-- A trigger of a graph (08 R159-R161). -/
structure Trigger where
  handle : Handle
  graph  : Nat
  answer : Bool
  k      : Nat
  parent : Option (Nat × Nat)
  depth  : Nat
  screen : Bool
  ntok   : Nat
  final  : Bool
  wend   : Word
  stamp  : Stamp
deriving DecidableEq, Repr

/-- A recovery under way (14 R321-R324). -/
structure Recovery where
  prior    : EState
  first    : Stamp
  faults   : Nat
  restored : Option Stamp
  nextPos  : Nat
  lastRep  : Option Stamp
  replayed : Nat
  cause    : Nat
  code     : Nat
  torn     : List Trigger        -- the top graphs to restart, in chunk order
  inj      : Bool                -- an injected fault started it (R320)
deriving DecidableEq, Repr

/-- A MIGRATE_OUT under way (07 R147-R149, 13 R307). -/
structure MigOut where
  stamp : Stamp
  cmd   : Nat
  xfer  : Option Nat
  offer : Stamp
  acked : Bool
  limit : Nat                    -- MIGTO when the command came
deriving DecidableEq, Repr

/-- A notice held back: its opcode, domain, stamp and words from W3 on (11 R262). -/
structure HeldNote where
  op    : Nat
  dom   : Nat
  stamp : Stamp
  words : List Word
deriving DecidableEq, Repr

/-- A MIGRATE_IN or REUSE under way (07 R150-R152, 14 R325). -/
structure Build where
  cmd     : Nat
  stamp   : Stamp
  limit   : Nat                  -- MIGTO when the command came
  h       : Nat
  mirror  : Bool                 -- adopted from a mirror slot (14 R325)
  adopted : Bool
  srcBlk  : Nat
  src     : Handle
  park    : Bool
  arrived : Bool                 -- the state is in the entry's pages and passed the checks
  refused : Bool
  screen  : Bool
  nextPos : Nat
  lastRep : Option Stamp
  act     : Act
  esc     : Bool
  stopAt  : Option Stamp         -- the first STOP verdict of the re-screen (R144)
  held    : List HeldNote        -- notices about the new handle, which wait for the completion (11 R262)
  lim     : Nat                  -- CHUNK of the re-screen's open chunk, latched as it opened (03 R63)
  toks    : List Nat             -- its tokens so far; none: no chunk is open
  num     : Nat                  -- its number
deriving DecidableEq, Repr

/-- What the block keeps of a request beside its 64-byte entry. -/
structure Req where
  pform     : Option Bool
  pforms    : Bool × Bool       -- the forms the domain permitted when the prompt began (04 R87)
  oversize  : Bool
  pview     : Nat
  pset      : RampSet
  pmax      : Nat
  pwin      : Bool              -- the prompt window is open: no verdict, miss or CANCEL yet (01 R15, 07 R142)
  ptext     : TextState
  atext     : TextState
  kv        : List KvRec
  acc       : Tab AccState      -- index 4 * stream + plan
  chunks    : List Chunk
  past      : Tab Past
  stop      : Option Stop
  ended     : Bool              -- the Ramp has emitted the end word
  lastRepl  : Bool              -- the last released token was REPLACE (R49)
  step      : Option Step
  lastXfer  : Option Stamp
  lastOther : Option Stamp      -- latest transfer that is no node of the open step
  logfull   : Bool
  flushed   : Bool              -- the control page holds a copy of this entry (13 R294)
  recov     : Option Recovery
  mig       : Option MigOut
  build     : Option Build
deriving DecidableEq, Repr

/-- A Manifest entry (07 R135). -/
structure Entry where
  state     : EState
  dom       : Nat
  esel      : Bool
  prio      : Nat
  np        : Bool
  plast     : Bool
  eoa       : Bool
  spec      : Bool
  outcome   : Nat
  endv      : Bool
  gen       : Nat
  epoch     : Nat
  committed : Nat
  released  : Nat
  held      : Nat
  pdl       : Nat
  aseq      : Nat
  pstamp    : Stamp
  lastrel   : Stamp
  plist     : Nat
  npage     : Nat
  peer      : Nat
  mmode     : Bool
  frame     : Nat
  fgen      : Nat
  specN     : Nat
  steps     : Nat
  migH      : Nat
  pend      : Nat
  req       : Req
deriving DecidableEq, Repr

/-- The Manifest (07 R136, R154). `fresh` is the lowest index never used; `freed` lists freed indices, oldest first. -/
structure Manifest where
  en      : Bool
  migto   : Nat
  sel     : Nat
  data    : List Word
  entries : Tab Entry
  fresh   : Nat
  freed   : List Nat
deriving DecidableEq, Repr

/-! ### Clocks, reset, power and pins (12, 15) -/

/-- Where the block is in its reset sequence (15 R346, 14 R318). -/
inductive Phase where
  | service        -- no reset in progress
  | reset          -- POWER, BLOCK or PIN reset: waits for RST_N, PLL lock and BIST
  | bist           -- the built-in self-test runs
  | failing        -- block failure: the BLOCK_FAIL record is being written (R318)
  | blockReset     -- after a block failure, until RST_N has been low
  | arrayReset     -- PG_ARRAY lost (R349)
  | softLog        -- SOFT reset, Logbook step (R350)
deriving DecidableEq, Repr

structure Clk where
  lock       : Bool
  talign     : Bool
  gterr      : Bool
  gtlast     : Word
  gtD        : BitVec 32
  gtMis      : Nat
  badStb     : Nat
  kind       : Nat
  bistDone   : Bool
  fatal      : Bool
  failed     : Nat
  pgLogic    : Bool
  pgArray    : Bool
  pfwLow     : Bool
  pfwSeen    : Bool
  arrayLost  : Bool
  absent     : Bool
  rstN       : Bool
  blkNum     : Nat
  wrapper    : WrapperIns
  bsMode     : Bool
  wcells     : List (OutSig × Nat)   -- the wrapper boundary register's output cells (12 R283)
  winputs    : List (InSig × Nat)    -- its input cells
  wser       : List Bool        -- the register between WSI and WSO, the bit nearest WSO first
  wshift     : Bool             -- the wrapper is in a shift state
  mbist      : Bool             -- WX_MBIST runs the array test
  mbistBad   : Nat              -- failing arrays that its last test found, for the test equipment
  bsCells    : BitVec 12        -- the update stage of the boundary-scan cells (12 R284)
  bsShift    : BitVec 12        -- their capture and shift stage, bit 0 nearest BS_SO
  phase      : Phase
  bistAfter  : Bool             -- the SOFT reset in progress ends with BIST
deriving DecidableEq, Repr

/-- Values of an output without READY with the stamps at which they are due, the latest first; the pins keep sixteen. -/
abbrev Recent (α : Type) := List (Stamp × α)

/-- The words driven or due on the output ports that have no READY, the edges at which the interrupt pulses, and the words last transferred
on Token Out and Verdict Out (12 R267, R268, R270, R274, R275). -/
structure Pins where
  maskOut : Tab (Recent (BitVec 256))
  maskRsp : Tab (Recent (Bool × BitVec 512))
  cnData  : Recent Word
  irq     : List Stamp
  toWord  : Tab (Stamp × BitVec 96)
  voWord  : Option (Stamp × BitVec 128)
deriving DecidableEq, Repr

/-! ### Counters (16) -/

structure Counter where
  value : Nat
  ovf   : Bool
  event : Nat
  chain : Bool
  en    : Bool
deriving DecidableEq, Repr

/-- A latched snapshot (R369). -/
structure Snap where
  seq      : Nat
  stamp    : Stamp
  periodic : Bool
  addr     : Nat
  cmd      : Option Nat
  left     : Nat
deriving DecidableEq, Repr

structure Counters where
  issued : Tab Stamp     -- the latest issue of each Pilot core, for the count of its idle cycles (R367)
  banks   : List (List Counter)
  now     : List (Nat × Nat × Nat)   -- bank, event, number: stamped at the current tally (R365)
  freeze  : BitVec 15
  auto    : Bool
  autoAt  : Stamp
  base    : Nat
  nsnap   : Nat
  period  : Nat
  seq     : Nat
  skipped : Nat
  snaps   : List Snap
deriving DecidableEq, Repr

/-! ### The Landing channel (11) -/

/-- A place of the command queue: a pushed cell with its end mark, or a gap marker (R244). -/
inductive CqCell where
  | cell (words : CellWords) (fin : Bool) (bad : BitVec 8)   -- `bad`: words that fail their parity check
  | gap  (count : Nat)
deriving DecidableEq, Repr

/-- A place of the notice queue with its tags (R243, R244). -/
structure NqCell where
  words : CellWords
  first : Bool
  fin   : Bool
  gap   : Bool
  bad   : Bool
deriving DecidableEq, Repr

/-- A command accepted and not yet completed (R242). -/
structure OpenCmd where
  id    : Nat
  op    : Nat
  tag   : Nat
  dom   : Nat
  stamp : Stamp
  args  : List Nat
  handle : Handle
deriving DecidableEq, Repr

/-- A message that waits to enter the notice queue, since one that R12 or R262 places before it may still come: a notice with its stamp, a
completion with its DSTAMP, or the completion of a FENCE, which completes when it enters (R257). -/
inductive WaitWhat where
  | notice (stamp : Stamp) (cells : List CellWords)
  | done   (id status : Nat) (dstamp : Stamp) (words : List Word)
  | fence  (id : Nat)
deriving DecidableEq, Repr

/-- `at'` is the stamp that orders it. -/
structure WaitMsg where
  at'  : Stamp
  what : WaitWhat
deriving DecidableEq, Repr

structure Landing where
  en       : Bool
  cqIE     : Bool
  nqIE     : Bool
  injEn    : Bool
  cqbuf    : CellWords
  cq       : List CqCell
  cqSkip   : Bool              -- the message being pushed is being dropped up to its end mark
  cqLevel  : Nat
  nq       : List NqCell
  nqbuf    : CellWords
  nqLevel  : Nat
  nqMid    : Bool              -- the message at the head has been popped in part
  nqFlush  : Option Nat        -- an NQ flush waits for that boundary; cells it covers
  misroute : Nat
  cmdDrop  : Nat
  dropped  : Nat
  wait     : List WaitMsg      -- in the order in which they will enter
  opens    : List OpenCmd
  nextId   : Nat
  nonce    : Option (BitVec 16)
  armAt    : Stamp
  busyAt   : Option Stamp      -- the latest LCLK edge that an access, an acceptance or a gap marker's removal has taken (R242, 12 R274)
deriving DecidableEq, Repr

/-! ### Domains (03 R63, 04 R87, 07 R155, 08 R178, R186, 16 R363) -/

/-- An epoch slot in use: reserved while it loads, then live (11 R255, R256). -/
structure Epoch where
  num       : Nat
  live      : Bool
  everAct   : Bool
  image     : Nat
  gen       : Nat
  slotEn    : BitVec 4
  kinds     : List Nat
  start     : Four
  stopTok   : Nat
  vocab     : Nat
  pvocab    : Option Nat
  tvocab    : List (Option Nat)
  redactTok : Nat
  repl      : List Nat
  gdir      : Nat
  ngraph    : Nat
  pgraph    : Option Nat
  cgraph    : Option Nat
  models    : List Nat
  plans     : List Nat
  ens       : List Nat
  psets     : List Nat
  hdrBase   : Nat
  nhdr      : Nat
  poolBase  : Nat
  npool     : Nat
  masks     : List Nat
  vslots    : List Nat
  locals    : List Nat            -- global slot of each local vocabulary, 0 for none (11 R255 W4)
  mwrap     : Bool                -- a mask generation moved from 255 to 1 (R255 W5)
  loadCmd   : Option Nat
deriving DecidableEq, Repr

structure Sem where
  holder    : Option Nat
  waiters   : List Nat
  reclaimed : Bool
deriving DecidableEq, Repr

structure Domain where
  isOpen   : Bool
  nonenf   : Bool
  ramp     : RampSet
  pmax     : Nat
  formB    : Bool
  formT    : Bool
  quota    : Nat
  dclass   : Nat
  jobmax   : Nat
  jobs     : Nat
  active   : Option Bool       -- the active epoch's slot
  ep0      : Option Epoch
  ep1      : Option Epoch
  imgGen   : Nat               -- generation of the domain's images (14 R313)
  sems     : Tab Sem
  flags    : Nat               -- FLAG tokens released (03 R49)
deriving DecidableEq, Repr

/-! ### Dispatcher, Timetable and Pilot cores (08, 09, 10) -/

/-- A task descriptor (08 R157). -/
structure Task where
  elastic : Bool
  cls     : Nat
  sub     : Bool
  subg    : Nat
  prog    : Nat
  deps    : BitVec 64
  arg     : BitVec 32
deriving DecidableEq, Repr

/-- An engine call's open partial or MORE pass (10 R227). -/
structure Pass where
  inst  : Nat                  -- the instance and the task whose job opened it
  task  : Nat
  op    : Nat                  -- 0 MATCH, 1 XLATE, 2 CLASSIFY
  key   : Nat                  -- set, target or model
  seg   : Nat
  spec  : Bool                 -- CLASSIFY: the SPEC flag; MATCH, XLATE: the pass started from the initial state
  pos   : Nat                  -- entries already given, or the KV position reached
  state : Nat                  -- MATCH: the pattern state the pass started from
  carry : List Byte            -- XLATE: the carry the pass started from
deriving DecidableEq, Repr

/-- A graph instance (08 R160). -/
structure GInst where
  handle  : Handle
  graph   : Nat
  answer  : Bool
  k       : Nat
  parent  : Option (Nat × Nat)
  depth   : Nat
  screen  : Bool
  ntask   : Nat
  vtask   : Nat
  tasks   : List Task
  issued  : BitVec 64
  done    : BitVec 64
  skip    : BitVec 64
  faulted : BitVec 64
  results : Tab Word
  verdict : Option Word
  wend    : Word
  ntok    : Nat
  final   : Bool
  met     : BitVec 64            -- tasks whose end or skip has been resolved (R162)
  ended   : Bool                 -- a subgraph that has ended: its record goes with its parent's (R166)
  ready   : Tab Stamp
  work    : List Work            -- of a top instance: what it and its subgraphs reached, in order of completion (R159)
  passes  : List Pass            -- of a top instance: open passes of it and its subgraphs
deriving DecidableEq, Repr

structure Reg where
  val  : Word
  pois : Bool
deriving DecidableEq, Repr

/-- The five engine calls (10 R224). -/
inductive CallOp where
  | matchOp | xlate | feature | tree | classify
deriving DecidableEq, Repr

/-- The committed state that a call reads when it starts (04 R81, 05 R107, 06 R119): a carry, a pattern state, accumulators, KV_LEN. -/
structure CallBase where
  carry : List Byte
  pat   : Option Nat
  accs  : List Accum
  kv    : Nat
deriving DecidableEq, Repr

structure Call where
  id      : Nat
  op      : CallOp
  gd      : Nat
  w0      : Word
  w1      : Word
  out     : Nat
  fl0     : Bool
  fl1     : Bool
  k       : Nat
  issued  : Stamp
  started : Option (Stamp × Nat)
  lateAt  : Option Stamp
  restart : Bool
  base    : CallBase
deriving DecidableEq, Repr

/-- A node-memory load whose data has not returned (10 R217). -/
structure Ldm where
  id   : Nat
  gr   : Nat
  addr : Nat
  size : Nat
deriving DecidableEq, Repr

/-- What suspends a job in its slot (10 R233, R234): the acquire, its stamp and its destination register. -/
inductive Wait where
  | no
  | sem  (n : Nat) (since : Stamp) (gd : Nat)
  | cred (pool n : Nat) (since : Stamp) (gd : Nat)
deriving DecidableEq, Repr

/-- A store not yet ordered (09 R193): word address, old value and poison, the bytes written, and its number in store order. -/
structure Store where
  addr : Nat
  old  : Word
  pois : Bool
  mask : BitVec 9                -- bytes of the word that it wrote; bit 8: its poison tag
  num  : Nat
deriving DecidableEq, Repr

structure Job where
  inst    : Nat
  task    : Nat
  handle  : Handle
  dom     : Nat
  prio    : Nat
  elastic : Bool
  cls     : Nat
  prog    : Nat
  nword   : Nat
  pc      : Nat
  regs    : List Reg
  preds   : BitVec 8
  wins    : List (Option Nat)
  calls   : List Call
  nextCall : Nat
  ldms    : List Ldm
  sems    : List Nat
  creds   : Tab Nat
  wait    : Wait
  ready   : Stamp
  holdEnd : Option Stamp
  lateAt  : Option Stamp
  stores  : List Store
  specs   : List Nat           -- models whose KV_END this job's SPEC calls moved (05 R108)
deriving DecidableEq, Repr

structure SWord where
  val   : Word
  gen   : Nat
  pois  : Bool
  valid : Bool
deriving DecidableEq, Repr

/-- One job slot (08, "Job slots and issue"; 09 R190). -/
structure Slot where
  job   : Option Job
  gen   : Nat
  words : Tab SWord
  free  : Stamp                -- no placement before this stamp (14 R317)
deriving DecidableEq, Repr

/-- A save frame (08 R176, R177). -/
structure Frame where
  job   : Job
  words : Tab SWord
  gen   : Nat
deriving DecidableEq, Repr

structure Pilot where
  slots    : Tab Slot
  fenced   : BitVec 18
  sp16     : Option Nat
  sp17     : Option Nat
  swapCore : Nat
  swapGo   : Bool
  lastf    : Word
  stale    : Nat
deriving DecidableEq, Repr

/-- A job waiting for a slot: new, or resumed from a save frame. -/
structure Ready where
  inst  : Nat
  task  : Nat
  stamp : Stamp
  frame : Option Nat
deriving DecidableEq, Repr

/-- A call of a torn-down job that is still on its unit: the job's old slot, its domain and kind (08 R174, R182). -/
structure Orphan where
  slot    : Nat
  call    : Call
  dom     : Nat
  elastic : Bool
deriving DecidableEq, Repr

/-- Dependences to resolve (08 R162): the instance, the stamp of the END or SKIP, the tasks that it completed. -/
structure Resolve where
  inst : Nat
  at'  : Stamp
  set  : BitVec 64
deriving DecidableEq, Repr

structure Dispatcher where
  en       : Bool
  saveBase : Nat
  semSel   : Nat
  insts    : Tab GInst
  instGen  : Tab Nat
  startQ   : List Trigger
  outside  : List Trigger
  ready    : List Ready
  resolve  : List Resolve
  frames   : Tab Frame
  frameGen : Tab Nat
  orphans  : List Orphan
deriving DecidableEq, Repr

/-- One Timetable class (08 R170-R175, R184). -/
structure TtClass where
  words    : Tab Word            -- index bank * 256 + slot
  active   : Bool
  av       : Bool
  sw       : Option Stamp        -- a switch pends, requested at this stamp
  status   : Nat
  nslot0   : Nat
  nslot1   : Nat
  runlim   : Nat
  posSlot  : Nat
  posBank  : Bool
  posAt    : Stamp
  forfeits : Nat
deriving DecidableEq, Repr

structure Timetable where
  holdlim : Nat
  cls     : List TtClass
deriving DecidableEq, Repr

/-! ### Token tier (02) -/

/-- A node of a tree frame (R36). -/
structure TNode where
  bad    : Bool
  states : Four
  v      : TokVerdict
  depth  : Nat
  parent : Option Nat
  tok    : Nat
  stamp  : Stamp
  held   : Bool                -- it has entered the speculative area, at its T10 (R22)
deriving DecidableEq, Repr

structure TFrame where
  gen   : Nat
  inUse : Bool
  nodes : Tab TNode
deriving DecidableEq, Repr

/-- A mask directory entry (R33). -/
structure MaskDir where
  used    : Bool
  owner   : Nat
  gen     : Nat
  popx    : Nat
  members : List Nat
  bits    : BitVec 262144
deriving DecidableEq, Repr

inductive FKind where
  | token | node | accept | prime
deriving DecidableEq, Repr

/-- What a transfer's T10 found, kept until T11: a trip one count later undoes it (R40). -/
structure Undo where
  pass     : Bool
  chunks   : List Chunk
  past     : Tab Past
  aseq     : Nat
  released : Nat
  lastrel  : Stamp
  eoa      : Bool
  lastRepl : Bool
  ended    : Bool
deriving DecidableEq, Repr

/-- A transfer in flight on the token path (R22): what remains to be done at T7, T10 and T11. -/
structure Flight where
  kind   : FKind
  lane   : Nat
  handle : Handle
  stamp  : Stamp
  passed : Bool
  fault  : Bool
  replay : Bool
  screen : Bool               -- replay of a re-screen: its verdict goes to the re-screen merge (07 R152)
  path   : List PathTok       -- tokens this transfer brings, in depth order
  pos    : Nat                -- position of the first of them
  frame  : Option Nat         -- frame freed at T10
  keepSpec : Bool             -- the implicit close of a node 0 that opens a new step (07 R146)
  desc   : Option (BitVec 256)
  notes  : List (Nat × List Word)   -- notices raised at T11: opcode and W3, W4, ...
  stage  : Nat                -- the next stage to apply: 7, 10 or 11
  prior  : Option Four        -- the committed states before this transfer wrote them (R294)
  own    : Option (Nat × Nat) -- a node's frame and index
  touch  : List (Nat × Nat × Nat)   -- words read or written on the path: detector code, place (14 R314), cycle of the last access
  undo   : Option Undo        -- set by T10
  dom    : Nat                -- the domain of its entry at T1
deriving DecidableEq, Repr

structure TokenTier where
  en        : Bool
  maskEn    : Bool
  specEn    : Bool
  fenced    : BitVec 8
  spareFor  : Nat
  spareUsed : Bool
  spareBad  : Bool
  swapLane  : Nat
  swapGo    : Bool
  mspill    : Nat
  hdrs      : Tab Word
  pool      : Tab Word
  masks     : Tab MaskDir
  states    : Tab Four
  frames    : Tab TFrame
  lastCap   : Tab Stamp
  readyAt   : Tab Stamp
  path      : List Flight
deriving DecidableEq, Repr

/-! ### Text tier, classifier array, tree engines (04, 05, 06) -/

structure VSlot where
  valid  : Bool
  shared : Bool
  owner  : Nat
  gen    : Nat
  base   : Nat
  ntok   : Nat
deriving DecidableEq, Repr

/-- A view in a view slot (04 R74, R75). -/
structure View where
  handle : Handle
  dom    : Nat
  gen    : Nat
  k      : Nat
  toks   : List Nat            -- the chunk's tokens in held order
  bytes  : List Byte
  cin    : Nat
  bound  : List Nat
  src    : List (Option Nat)   -- token offset of each view byte
  final  : Bool
  built  : Bool
  asked  : Stamp
  slot   : Option Nat
  waited : Bool                -- it has waited for a free slot (counted once)
  gone   : Bool                -- its graph has ended: the view is built in its turn and freed at once
deriving DecidableEq, Repr

structure TextTier where
  en       : Bool
  pinEn    : Bool
  fenced   : BitVec 22
  fenceU   : Nat
  viewBase : Nat
  fffd     : Nat
  pdrop    : Nat
  vslots   : List VSlot
  views    : List View
  viewGen  : Tab Nat
  lastPin  : Option Stamp      -- the latest Prompt In transfer: one an edge (12 R265)
deriving DecidableEq, Repr

/-- A line of a cache or store directory: address, owner domain, image generation, pinned (05 R109, 06 R132). -/
structure CLine where
  addr   : Nat
  owner  : Nat
  gen    : Nat
  pinned : Bool
deriving DecidableEq, Repr

structure Classifier where
  en       : Bool
  fenced   : BitVec 34
  sp32     : Option Nat
  sp33     : Option Nat
  swapTile : Nat
  swapGo   : Bool
  pinmax   : Nat
  goldAddr : Nat
  goldGo   : Bool
  goldPass : BitVec 34
  goldDone : Bool
  skew     : Nat
  ovf      : Nat
  cache    : List CLine
deriving DecidableEq, Repr

structure Trees where
  en       : Bool
  fen      : Bool
  test     : Bool
  fenced   : BitVec 9
  spare    : Option Nat
  fst      : BitVec 2
  swapEng  : Nat
  swapGo   : Bool
  fstUnit  : Nat
  pinmax   : Nat
  goldAddr : Nat
  goldGo   : Bool
  swapChk  : Bool
  goldPass : BitVec 9
  goldDone : Bool
  miss     : Nat
  tie      : Nat
  store    : List CLine
  plan     : List CLine
deriving DecidableEq, Repr

/-! ### Ramp and Hold (03, 12 R268, R270) -/

/-- A word that waits for Token Out: earliest transfer, the word, and whether its leaving frees a Hold entry (R60). -/
structure OutWord where
  lane  : Nat
  key   : Stamp × Nat
  since : Stamp
  word  : BitVec 96
  entry : Bool
deriving DecidableEq, Repr

/-- What waits for its place among the Ramp's events of its stamp (R48): the PASS of a prompt without a prompt graph (08 R159), or the
release of a pass-through token of a chunk (R57); `last`: it is STOP_TOK. -/
inductive DueKind where
  | prompt
  | token (num : Nat) (tok : Held) (last : Bool)
deriving DecidableEq, Repr

structure RampDue where
  at'  : Stamp
  h    : Handle
  what : DueKind
deriving DecidableEq, Repr

structure Ramp where
  en      : Bool
  levelIE : Bool
  level   : Nat
  peak    : Nat
  outq    : List OutWord
  voq     : List (Stamp × BitVec 128)
  due     : List RampDue         -- in stamp order
deriving DecidableEq, Repr

/-! ### Memory side (13) -/

structure Region where
  v      : Bool
  shared : Bool
  wr     : Bool
  base   : Nat
  size   : Nat
  owner  : Nat
  gen    : Nat
deriving DecidableEq, Repr

/-- Who waits for a memory response. -/
inductive Purpose where
  | ldm  (slot id : Nat) (inst : Nat)
  | snap (seq : Nat)
deriving DecidableEq, Repr

/-- A memory request (12 R271). -/
structure MReq where
  write : Bool
  line  : Nat
  data  : BitVec 1024
  be    : BitVec 128
  wpois : BitVec 16
  who   : Purpose
deriving DecidableEq, Repr

structure Port where
  waitq   : List MReq
  out     : Tab MReq
  nextTag : Nat
  shown   : Option (Stamp × Nat × MReq)   -- the request last transferred: its stamp and tag
  resp    : Option Stamp         -- the stamp of the response last transferred
  errNext : Bool                 -- an injected ERR waits for the next response (14 R319)
deriving DecidableEq, Repr

/-- A line of the state cache: owner domain and page generation, 64 bytes, and the poison tags of its words (13 R296). -/
structure SLine where
  dirty : Bool
  owner : Nat
  gen   : Nat
  data  : BitVec 512
  pois  : BitVec 8
deriving DecidableEq, Repr

/-- What waits, unchecked, while no request is issued (13 R309): a write to an area of a request's pages, the bytes of a MIRROR packet, or
a flush of an entry. -/
inductive Delayed where
  | area   (h : Handle) (role off : Nat) (bytes : List Byte)
  | mirror (addr : Nat) (bytes : List Byte)
  | flush (idx : Nat)
deriving DecidableEq, Repr

structure MemSide where
  en       : Bool
  win      : Nat
  sel      : Nat
  d0       : Word
  rgns     : Tab Region
  viol     : Nat
  mserr    : Nat
  scIdx    : Nat
  flushes  : Nat
  scLines  : Tab SLine           -- by 64-byte line address
  delayed  : List Delayed
  bytes    : List Host.Cell
  pois     : List Nat            -- addresses of 64-bit words that carry the poison tag
  ports    : Tab Port
deriving DecidableEq, Repr

/-! ### Ferry link (13) -/

/-- A group's training state (R302). -/
inductive GPhase where
  | down | train (n : Nat) | up
deriving DecidableEq, Repr

/-- One programmable level of a queue and its enable (R299). -/
structure QLevel where
  level : Nat
  ie    : Bool
deriving DecidableEq, Repr

/-- What a packet carries in its payload; the places of the fields inside the 240 bytes are not given (R302, R303, R307, R308). -/
inductive Payload where
  | none
  | link   (block groups credits : Nat) (swap : Option Nat)
  | offer  (src : Handle) (epoch h bytes : Nat)
  | data   (bytes : List Byte)
  | crc    (value : BitVec 32)
  | reason (code : Nat)
  | mirror (idx off : Nat) (bytes : List Byte)
deriving DecidableEq, Repr

/-- A packet for a group before its sequence number: TYPE, DOM, XFER and the payload (R304); `bad`: a word of it fails the parity check of
its queue (R299). -/
structure TxPkt where
  typ  : Nat
  dom  : Nat
  xfer : Nat
  body : Payload
  bad  : Bool
deriving DecidableEq, Repr

/-- An item of a transmit queue: a packet, or the gap marker that counts dropped packets (R298). -/
inductive TxItem where
  | pkt (p : TxPkt)
  | gap (count : Nat) (first last : Stamp)
deriving DecidableEq, Repr

/-- A packet as it left: its group and stamp, the header's SEQ and CRED, the trailer's ACKSEQ (R304). -/
structure Sent where
  group : Nat
  stamp : Stamp
  seq   : Nat
  cred  : Nat
  ack   : Nat
  pkt   : TxPkt
deriving DecidableEq, Repr

structure Group where
  phase    : GPhase
  since    : Stamp
  peer     : Nat
  free     : Nat                 -- pool credits free (R306)
  marked   : Bool                -- credits of the pool were reclaimed (08 R180)
  link     : Nat                 -- link credits held (R305)
  waiters  : List Nat
  txSeq    : Nat
  rxSeq    : Nat                 -- the next SEQ in order
  backlog  : List TxItem         -- the transmit queue (R297): packets that wait for the group or for a credit
  feed     : List TxPkt          -- packets of state transfers that wait for a place in the transmit queue
  freed    : Nat                 -- receive places freed since the previous return (R304 CRED)
  theirs   : Nat                 -- GROUPS as the far end's LINK gave it (R302)
  txQ      : QLevel
  rxQ      : QLevel
  retry    : List Sent           -- the packets sent that advance SEQ and are not acknowledged (R305)
  lastGood : Option Stamp        -- latest packet with a good CRC; none before the first and after PEER_LOST
  beatAt   : Stamp
  lost     : Bool                -- PEER_LOST raised and no LINK_UP since
  swapped  : Option Nat          -- the lane that lane 8 replaces when the group is up
deriving DecidableEq, Repr

structure Offer where
  group : Nat
  xfer  : Nat
  dom   : Nat
  src   : Handle
  epoch : Nat
  h     : Nat
  bytes : Nat
  stamp : Stamp
  got   : List Byte
  done  : Bool
  crc   : BitVec 32
deriving DecidableEq, Repr

structure Ferry where
  en        : Bool
  groups    : Nat
  loop      : Bool
  miren     : Bool
  mirg      : Nat
  fenced    : BitVec 9
  spareFor  : Nat
  spareUsed : Bool
  swapLane  : Nat
  swapGo    : Bool
  txeq      : BitVec 30
  mirbase   : Nat
  fecOk     : Nat
  fecBad    : Nat
  repeated  : Nat
  ovf       : Nat
  grp       : List Group
  offers    : List Offer
  sent      : List Sent          -- the latest packets sent
  looped    : List Sent          -- with LOOP = 1: packets sent that have not reached the group's own receiver (R310)
deriving DecidableEq, Repr

/-! ### Watch unit and Logbook (14) -/

/-- A Logbook record (R330). -/
structure LRec where
  typ   : Nat
  src   : Nat
  cls   : Nat
  dom   : Nat
  count : Nat
  inj   : Bool
  first : Stamp
  last  : Stamp
  seq   : Nat
  boot  : Nat
  d0    : Word
  d1    : Word
  d2    : Word
  blk   : Nat                    -- BLOCK: the block's number when the record was raised
  bad   : Bool                   -- a word of it fails the parity check of staging (13 R299)
deriving DecidableEq, Repr

/-- A swap under way: kind and number as in R258, the spare that takes the number (R40, R89, R122, R303, R317). -/
structure Swap where
  kind  : Nat
  num   : Nat
  old   : Nat                    -- the physical unit that is replaced
  unit  : Nat
  since : Stamp                  -- the fence
  due   : Option Stamp           -- none: it waits for a core's slots to empty or for a group to come up
  host  : Bool
  check : Bool                   -- the golden run of R122 is under way on the spare
  cmd   : Option Nat             -- the UNIT_FENCE that waits for it
  inj   : Bool                   -- an injected fault made it (R320)
deriving DecidableEq, Repr

structure Watch where
  recEn   : Bool
  ceNote  : Bool
  reclim  : Nat
  shadow  : Nat
  lastd   : Word
  ce      : Nat
  badreg  : Nat
  recOk   : Nat
  recBad  : Nat
  swaps   : List Swap
  repairs : List (Nat × Nat × Stamp)   -- detector code, place (R314), due stamp
  coal    : List LRec
  staging : List LRec
  stgQ    : QLevel                     -- the level of staging (13 R299)
  injNow  : Bool                       -- an injected fault is taking effect (R320)
deriving DecidableEq, Repr

/-- The erase of the NVM device under way: of a sector (R329), or of all but the ERASED record's slot (R336). -/
inductive NvmOp where
  | idle | sector (n : Nat) | all (slot : Nat)
deriving DecidableEq, Repr

/-- A LOG_READ under way (R335). -/
structure LRead where
  cmd   : Nat
  addr  : Nat
  first : Nat
  count : Nat
deriving DecidableEq, Repr

structure Logbook where
  en      : Bool
  nor     : Bool
  wrap    : Bool
  verd    : Bool
  ce      : Bool
  mounting : Bool
  mounted : Bool
  full    : Bool
  erasing : Bool
  pfw     : Bool
  failed  : Bool
  torn    : Nat
  head    : Nat
  nextSeq : Nat
  cap     : Nat
  lost    : Nat
  boot    : Nat
  dev     : Tab (Option LRec)      -- record slots of the device; `none` is a torn slot
  ckpts   : List LRec
  op      : NvmOp
  eraseCmd : Option Nat
  reads   : List LRead
deriving DecidableEq, Repr

structure Armed where
  point   : Nat
  mode    : Nat
  count   : Nat
  from'   : Stamp
  applied : Nat
  lapsed  : Nat
  cmd     : Nat
deriving DecidableEq, Repr

structure Inject where
  armed : Option Armed
  count : Nat
deriving DecidableEq, Repr

/-- The enables whose change takes effect at a clock edge after the write (02 R41, 03 R64, 04 R86, 05 R111, 06 R134, 08 R185,
11 R263). -/
inductive En where
  | tok | mask | spec | ramp | txt | pin | cls | tre | fen | test | dsp | lnd | cqIE | nqIE | inj
deriving DecidableEq, Repr

/-- A change that is not in effect before its edge: until then the enable acts as before the write. -/
structure Lag where
  what : En
  edge : Stamp
  was  : Bool
deriving DecidableEq, Repr

/-! ### The whole block -/

/-- The block's state (00-16). -/
structure State where
  tally   : Stamp
  pending : List Instr
  fresh   : Nat
  lag     : List Lag
  clk     : Clk
  pins    : Pins
  cnt     : Counters
  lnd     : Landing
  man     : Manifest
  doms    : Tab Domain
  dsp     : Dispatcher
  tt      : Timetable
  pil     : Pilot
  tok     : TokenTier
  txt     : TextTier
  cls     : Classifier
  tre     : Trees
  ramp    : Ramp
  mem     : MemSide
  fry     : Ferry
  wch     : Watch
  log     : Logbook
  inj     : Inject
deriving DecidableEq, Repr

/-- No step of this block faults: its own faults (job faults, detector trips, block failure) are states it enters. -/
inductive Fault where
  /-- Raised by no command; the block's own faults are next states. Safe. -/
  | none
deriving DecidableEq, Repr

/-- Why a command has no meaning. -/
inductive Refusal where
  /-- Raised only by an arm of `exec` whose command is not modelled yet. Safe. -/
  | notModelled (mnemonic : String)
deriving DecidableEq, Repr

/-! ### Reset (15 R346-R353) -/

def RampSet.zero : RampSet := ⟨0, false, false, false, 0, 0⟩

/-- Text state at the start of a stream (04 R80). -/
def TextState.init : TextState :=
  ⟨[], List.replicate 4 ⟨[], none⟩, List.replicate 8 ⟨none, none⟩, 0, 0⟩

def Req.init : Req where
  pform := none
  pforms := (false, false)
  oversize := false
  pview := 0
  pset := RampSet.zero
  pmax := 0
  pwin := false
  ptext := TextState.init
  atext := TextState.init
  kv := List.replicate 4 ⟨0, 0, none⟩
  acc := []
  chunks := []
  past := []
  stop := none
  ended := false
  lastRepl := false
  step := none
  lastXfer := none
  lastOther := none
  logfull := false
  flushed := false
  recov := none
  mig := none
  build := none

/-- A FREE entry of the given generation (07 R136). -/
def Entry.init (gen : Nat) : Entry where
  state := .free
  dom := 0
  esel := false
  prio := 0
  np := false
  plast := false
  eoa := false
  spec := false
  outcome := 0
  endv := false
  gen := gen
  epoch := 0
  committed := 0
  released := 0
  held := 0
  pdl := 0
  aseq := 0
  pstamp := 0
  lastrel := 0
  plist := 0
  npage := 0
  peer := 0
  mmode := false
  frame := 0
  fgen := 0
  specN := 0
  steps := 0
  migH := 0
  pend := 0
  req := Req.init

/-- A domain descriptor at reset; only domain 0 is open (15 R353). -/
def Domain.init (isOpen : Bool) : Domain where
  isOpen := isOpen
  nonenf := false
  ramp := RampSet.zero
  pmax := 0
  formB := false
  formT := false
  quota := 0
  dclass := 0
  jobmax := 0
  jobs := 0
  active := none
  ep0 := none
  ep1 := none
  imgGen := 1
  sems := []
  flags := 0

/-- Counter selections at reset (16 R368). -/
def Counters.bank : List Counter :=
  ⟨0, false, 0x02, false, true⟩ ::
    (List.range 15).map fun i => ⟨0, false, 0x10 + i, false, true⟩

def Counters.init : Counters where
  issued := []
  banks := List.replicate 15 Counters.bank
  now := []
  freeze := 0
  auto := false
  autoAt := 0
  base := 0
  nsnap := 0
  period := 1000
  seq := 0
  skipped := 0
  snaps := []

def Clk.init : Clk where
  lock := true
  talign := false
  gterr := false
  gtlast := 0
  gtD := 0
  gtMis := 0
  badStb := 0
  kind := 0
  bistDone := true
  fatal := false
  failed := 0
  pgLogic := true
  pgArray := true
  pfwLow := false
  pfwSeen := false
  arrayLost := false
  absent := false
  rstN := true
  blkNum := 0
  wrapper := .bypass
  bsMode := false
  wcells := []
  winputs := []
  wser := []
  wshift := false
  mbist := false
  mbistBad := 0
  bsCells := 0
  bsShift := 0
  phase := .service
  bistAfter := false

def Pins.idle : Pins := ⟨[], [], [], [], [], none⟩

def Landing.init : Landing where
  en := false
  cqIE := false
  nqIE := false
  injEn := false
  cqbuf := List.replicate 8 0
  cq := []
  cqSkip := false
  cqLevel := 0x180
  nq := []
  nqbuf := List.replicate 8 0
  nqLevel := 0x600
  nqMid := false
  nqFlush := none
  misroute := 0
  cmdDrop := 0
  dropped := 0
  wait := []
  opens := []
  nextId := 0
  nonce := none
  armAt := 0
  busyAt := none

def Manifest.init : Manifest := ⟨false, 1000, 0, List.replicate 8 0, [], 0, []⟩

def Dispatcher.init : Dispatcher := ⟨false, 0, 0, [], [], [], [], [], [], [], [], []⟩

def TtClass.init : TtClass := ⟨[], false, false, none, 0, 0, 0, 0, 0, false, 0, 0⟩

def Timetable.init : Timetable := ⟨100, List.replicate 4 TtClass.init⟩

def Pilot.init : Pilot := ⟨[], 0, none, none, 0, false, 0, 0⟩

def TokenTier.init : TokenTier where
  en := false
  maskEn := false
  specEn := false
  fenced := 0
  spareFor := 0
  spareUsed := false
  spareBad := false
  swapLane := 0
  swapGo := false
  mspill := 0
  hdrs := []
  pool := []
  masks := []
  states := []
  frames := []
  lastCap := []
  readyAt := []
  path := []

def TextTier.init : TextTier :=
  ⟨false, false, 0, 0, 0, 0, 0, List.replicate 16 ⟨false, false, 0, 0, 0, 0⟩, [], [], none⟩

def Classifier.init : Classifier where
  en := false
  fenced := 0
  sp32 := none
  sp33 := none
  swapTile := 0
  swapGo := false
  pinmax := 0x6000
  goldAddr := 0
  goldGo := false
  goldPass := 0
  goldDone := false
  skew := 0
  ovf := 0
  cache := []

def Trees.init : Trees where
  en := false
  fen := false
  test := false
  fenced := 0
  spare := none
  fst := 0
  swapEng := 0
  swapGo := false
  fstUnit := 0
  pinmax := 0x1800
  goldAddr := 0
  goldGo := false
  swapChk := false
  goldPass := 0
  goldDone := false
  miss := 0
  tie := 0
  store := []
  plan := []

def Ramp.init : Ramp := ⟨false, false, 655360, 0, [], [], []⟩

def MemSide.init : MemSide where
  en := false
  win := 0
  sel := 0
  d0 := 0
  rgns := []
  viol := 0
  mserr := 0
  scIdx := 0
  flushes := 0
  scLines := []
  delayed := []
  bytes := []
  pois := []
  ports := []

/-- Levels at reset: disabled, at the depth of the queue (log entry 82). -/
def Group.init : Group where
  phase := .down
  since := 0
  peer := 0
  free := 64
  marked := false
  link := 0
  waiters := []
  txSeq := 0
  rxSeq := 0
  backlog := []
  feed := []
  freed := 0
  theirs := 0
  txQ := ⟨512, false⟩
  rxQ := ⟨1024, false⟩
  retry := []
  lastGood := none
  beatAt := 0
  lost := false
  swapped := none

def Ferry.init : Ferry where
  en := false
  groups := 0
  loop := false
  miren := false
  mirg := 0
  fenced := 0
  spareFor := 0
  spareUsed := false
  swapLane := 0
  swapGo := false
  txeq := 0
  mirbase := 0
  fecOk := 0
  fecBad := 0
  repeated := 0
  ovf := 0
  grp := List.replicate 8 Group.init
  offers := []
  sent := []
  looped := []

def Watch.init : Watch := ⟨false, false, 2000000, 0, 0, 0, 0, 0, 0, [], [], [], [], ⟨256, false⟩, false⟩

def Logbook.init : Logbook where
  en := false
  nor := true
  wrap := false
  verd := false
  ce := false
  mounting := false
  mounted := false
  full := false
  erasing := false
  pfw := false
  failed := false
  torn := 0
  head := 0
  nextSeq := 0
  cap := 0
  lost := 0
  boot := 0
  dev := []
  ckpts := []
  op := .idle
  eraseCmd := none
  reads := []

/-- The block right after a POWER reset has ended: in service, every register at its reset value, the tally unaligned. -/
def State.reset : State where
  tally := 0
  pending := []
  fresh := 0
  lag := []
  clk := Clk.init
  pins := Pins.idle
  cnt := Counters.init
  lnd := Landing.init
  man := Manifest.init
  doms := [(0, Domain.init true)]
  dsp := Dispatcher.init
  tt := Timetable.init
  pil := Pilot.init
  tok := TokenTier.init
  txt := TextTier.init
  cls := Classifier.init
  tre := Trees.init
  ramp := Ramp.init
  mem := MemSide.init
  fry := Ferry.init
  wch := Watch.init
  log := Logbook.init
  inj := ⟨none, 0⟩

end Sys2Proof.Machine
end

