-- ==== Sys2Proof/Machine/Bits.lean ====
section
/-! DEFINITION. Bits.lean: bit fields, sparse tables, the node-memory list and generations (00 "Numbers, encodings and sizes";
12 R271; 14 R313). -/

namespace Sys2Proof.Machine

/-! ### Fields -/

/-- Bits [lo+len-1:lo] of a word as a number. -/
def fld {n : Nat} (w : BitVec n) (lo len : Nat) : Nat := (w.toNat >>> lo) % 2 ^ len

/-- Bit i of a word. -/
def bitAt {n : Nat} (w : BitVec n) (i : Nat) : Bool := w.getLsbD i

/-- A word of fields given as (low bit, value) pairs; the fields do not overlap. -/
def pack (n : Nat) (fs : List (Nat × Nat)) : BitVec n :=
  BitVec.ofNat n (fs.foldl (fun a p => a + p.2 <<< p.1) 0)

/-- The number 0 or 1 of a flag. -/
def nb (b : Bool) : Nat := if b then 1 else 0

/-- Are all bits of `w` outside the listed (low bit, length) fields zero? -/
def reservedZero {n : Nat} (w : BitVec n) (fs : List (Nat × Nat)) : Bool :=
  fs.foldl (fun a p => a - (fld w p.1 p.2) <<< p.1) w.toNat == 0

def hIdx (h : Handle) : Nat := fld h 0 16
def hGen (h : Handle) : Nat := fld h 16 16
def mkHandle (gen idx : Nat) : Handle := pack 32 [(0, idx), (16, gen)]

/-- The least multiple of m at or above t (an edge of a divided clock, 15 R342). -/
def edgeUp (m t : Nat) : Nat := (t + (m - 1)) / m * m

def ceilDiv (a b : Nat) : Nat := (a + (b - 1)) / b

/-! ### Sparse tables -/

def Tab.get {α : Type} : Tab α → Nat → Option α
  | [], _ => none
  | (j, a) :: r, k => if j = k then some a else Tab.get r k

def Tab.set {α : Type} : Tab α → Nat → α → Tab α
  | [], k, v => [(k, v)]
  | (j, a) :: r, k, v =>
    if k < j then (k, v) :: (j, a) :: r
    else if k = j then (k, v) :: r
    else (j, a) :: Tab.set r k v

def Tab.del {α : Type} : Tab α → Nat → Tab α
  | [], _ => []
  | (j, a) :: r, k => if j = k then r else (j, a) :: Tab.del r k

def Tab.getD {α : Type} (t : Tab α) (k : Nat) (d : α) : α := (Tab.get t k).getD d

/-- The lowest number not a key of a table whose keys rise, starting at n. -/
def Tab.lowestFree {α : Type} : Tab α → Nat → Nat
  | [], n => n
  | (j, _) :: r, n => if j = n then Tab.lowestFree r (n + 1) else if j < n then Tab.lowestFree r n else n

/-! ### Bytes and words -/

/-- Little-endian number of a byte list (00). -/
def leNat : List Byte → Nat
  | [] => 0
  | b :: r => b.toNat + 256 * leNat r

/-- n bytes of a number, least significant first. -/
def leBytes : Nat → Nat → List Byte
  | 0, _ => []
  | n + 1, v => BitVec.ofNat 8 v :: leBytes n (v / 256)

/-! ### Node memory: bytes in rising address order, none equal to the value an unlisted address reads as -/

/-- What an address that holds no listed byte reads as (log entry 4). -/
def unlisted : Byte := 0

abbrev Bytes := List Host.Cell

def memGet : Bytes → Nat → Byte
  | [], _ => unlisted
  | (j, b) :: r, a => if j = a then b else if a < j then unlisted else memGet r a

/-- Put a byte in front unless an unlisted address reads the same. -/
def memCons (a : Nat) (b : Byte) (r : Bytes) : Bytes := if b = unlisted then r else (a, b) :: r

def memSet : Bytes → Nat → Byte → Bytes
  | [], a, b => memCons a b []
  | (j, c) :: r, a, b =>
    if a < j then memCons a b ((j, c) :: r)
    else if a = j then memCons a b r
    else (j, c) :: memSet r a b

/-- Bytes a, a+1, ..., a+n-1 from the cells at or above a. -/
def memWalk : Nat → Bytes → Nat → List Byte
  | 0, _, _ => []
  | n + 1, [], a => unlisted :: memWalk n [] (a + 1)
  | n + 1, (j, b) :: r, a =>
    if j = a then b :: memWalk n r (a + 1) else unlisted :: memWalk n ((j, b) :: r) (a + 1)

def memRead (m : Bytes) (a n : Nat) : List Byte := memWalk n (m.dropWhile fun c => c.1 < a) a

def memWrite (m : Bytes) : Nat → List Byte → Bytes
  | _, [] => m
  | a, b :: r => memWrite (memSet m a b) (a + 1) r

/-- Every listed address lies above `lo`, addresses rise, and no listed byte equals what an unlisted address reads as. -/
def memWfFrom : Nat → Bytes → Bool
  | _, [] => true
  | lo, (j, b) :: r => decide (lo ≤ j) && decide (b ≠ unlisted) && memWfFrom (j + 1) r

def memWf (m : Bytes) : Bool := memWfFrom 0 m

/-! ### Generations (R313) -/

/-- The next value of an 8-bit generation: 1-255, never 0, 255 moves to 1. -/
def genSucc (g : Nat) : Nat := if g ≥ 255 then 1 else g + 1

/-- Move a generation on past the values that live owners carry: the new value and how many were passed over. -/
def genNext (live : List Nat) (g : Nat) : Nat × Nat :=
  go 255 (genSucc g) 0
where
  go : Nat → Nat → Nat → Nat × Nat
    | 0, v, k => (v, k)
    | n + 1, v, k => if live.contains v then go n (genSucc v) (k + 1) else (v, k)

/-! ### Codes -/

/-- ACTION codes of R45. -/
def Act.code : Act → Nat
  | .pass => 0 | .flag => 2 | .redact => 3 | .replace => 4 | .stop => 5

def actOf (c : Nat) : Option Act :=
  if c = 0 then some .pass else if c = 2 then some .flag else if c = 3 then some .redact
  else if c = 4 then some .replace else if c = 5 then some .stop else none

/-- The more severe of two actions (01, "Where verdicts form and where they act"). -/
def Act.max (a b : Act) : Act := if a.code < b.code then b else a

/-- STATE codes of R137. -/
def EState.code : EState → Nat
  | .free => 0 | .admitted => 1 | .prompt => 2 | .answer => 3 | .migOut => 4 | .migIn => 5
  | .parked => 6 | .reuse => 7 | .recover => 8 | .stopped => 9 | .cancelled => 10 | .ended => 11

/-! ### Completion STATUS (11 R248) -/

def stOK : Nat := 0x00
def stSTALE : Nat := 0x01
def stNOEFFECT : Nat := 0x02
def stBUSY : Nat := 0x03
def stDISABLED : Nat := 0x04
def stNOT_OPEN : Nat := 0x05
def stNO_EPOCH : Nat := 0x06
def stQUOTA : Nat := 0x07
def stFULL : Nat := 0x08
def stBAD_PAGES : Nat := 0x09
def stBAD_ARG : Nat := 0x0A
def stBUSY_SPEC : Nat := 0x0B
def stMISMATCH : Nat := 0x0C
def stTIMEOUT : Nat := 0x0D
def stCANCELLED : Nat := 0x0E
def stSTOPPED : Nat := 0x0F
def stFOREIGN : Nat := 0x10
def stREFUSED : Nat := 0x11
def stPRIV : Nat := 0x12
def stBAD_OP : Nat := 0x13
def stFRAME : Nat := 0x14
def stPOISON : Nat := 0x15
def stREJECTED : Nat := 0x16
def stSEQUENCE : Nat := 0x17
def stOPEN : Nat := 0x18
def stNO_SPARE : Nat := 0x19
def stEOA : Nat := 0x1A

/-- Put v at place n of a list whose places beyond its end read as d. -/
def putAt {α : Type} (d : α) : List α → Nat → α → List α
  | [], 0, v => [v]
  | [], n + 1, v => d :: putAt d [] n v
  | _ :: r, 0, v => v :: r
  | a :: r, n + 1, v => a :: putAt d r n v

/-- Replace the n-th element of a list. -/
def updAt {α : Type} (l : List α) (n : Nat) (f : α → α) : List α := l.mapIdx fun i a => if i = n then f a else a

end Sys2Proof.Machine
end

