-- ==== Sys2Proof/Machine/Crc.lean ====
section
/-! DEFINITION. Crc.lean: CRC-32C (Castagnoli, reflected polynomial 0x82F6_3B78, initial value and final inversion all ones),
the check that 05 R110, 06 R130, 09 R202, 13 R304, 14 R330 and 16 R371 name. -/

namespace Sys2Proof.Machine

def crcBit (c : Nat) : Nat := if c % 2 = 1 then (c / 2) ^^^ 0x82F63B78 else c / 2

def crcByte (c : Nat) (b : Byte) : Nat :=
  let x := c ^^^ b.toNat
  crcBit (crcBit (crcBit (crcBit (crcBit (crcBit (crcBit (crcBit x)))))))

def crc32c (bs : List Byte) : BitVec 32 :=
  BitVec.ofNat 32 ((bs.foldl crcByte 0xFFFFFFFF) ^^^ 0xFFFFFFFF)

end Sys2Proof.Machine
end

