-- ==== Sys2Proof/Machine/Ops.lean ====
section
/-! DEFINITION. Ops.lean: the shared operations over the state: records by index, counters (16 R365-R368), interrupts, the
notice queue and completions (11 R239-R245), Logbook records (14 R330-R333), and node memory behind the region check
(13 R287, R288, R295). -/

namespace Sys2Proof.Machine

/-! ### Service -/

/-- The ports serve (12 R274, R276): the block is in service, its array supply is good, and nothing isolates it. -/
def State.alive (s : State) : Bool :=
  !s.clk.absent && s.clk.pgLogic && s.clk.pgArray && s.clk.lock && decide (s.clk.wrapper = .bypass) && decide (s.clk.phase = .service)

/-- ALIVE (12 R275). After a block failure it stays high until the block reset (14 R318). -/
def State.aliveHigh (s : State) : Bool :=
  !s.clk.absent && s.clk.pgLogic && s.clk.pgArray && s.clk.lock && decide (s.clk.wrapper = .bypass) &&
    (decide (s.clk.phase = .service) || decide (s.clk.phase = .failing))

/-- The functional part runs: ALIVE, or the wrapper isolates a block that is otherwise in service (R283). -/
def State.running (s : State) : Bool :=
  !s.clk.absent && s.clk.pgLogic && s.clk.pgArray && s.clk.lock && decide (s.clk.phase = .service)

/-- The Watch unit and Logbook run on in an ARRAY reset, a failing block and the Logbook step of a SOFT reset (R318, R349, R350). A
failing block writes its BLOCK_FAIL record though it lost the PLL's lock (log entry 62). -/
def State.watchRuns (s : State) : Bool :=
  !s.clk.absent && s.clk.pgLogic && (decide (s.clk.phase = .failing) || (s.clk.lock &&
    (decide (s.clk.phase = .service) || decide (s.clk.phase = .arrayReset) || decide (s.clk.phase = .softLog))))

/-! ### Order of events (01 R9, R10; 03 R48) -/

/-- Ten times R10's key of an internal event: the number of its subsystem. An event of a port has the key 0. -/
abbrev kSub (n : Nat) : Nat := 10 * n
/-- The key of a Ramp event: its place in the order of R48 stands behind the subsystem's number. -/
abbrev kRamp (n : Nat) : Nat := kSub 11 + n

/-! ### Enables (02 R41, 03 R64, 04 R86, 05 R111, 06 R134, 08 R185, 11 R263) -/

/-- The enable that acts at the tally: the register's, or before the edge of its latest change the earlier value. -/
def State.eff (s : State) (k : En) (now : Bool) : Bool :=
  match s.lag.find? fun x => x.what = k with
  | some x => if s.tally < x.edge then x.was else now
  | none => now

/-- Remember the value of an enable that a write changes, until the edge. -/
def State.lagged (s : State) (k : En) (was now : Bool) (edge : Stamp) : State :=
  if was = now then s else { s with lag := ⟨k, edge, was⟩ :: s.lag.filter fun x => x.what ≠ k }

/-- The first edge after a stamp of GCLK, MCLK, ACLK (stamped by R8) and LCLK (15 R342). -/
def edgeG (t : Stamp) : Stamp := t + 1
def edgeM (t : Stamp) : Stamp := (t / 2 + 1) * 2
def edgeA (t : Stamp) : Stamp := if t % 3 = 0 then t + 2 else t + 1
def edgeL (t : Stamp) : Stamp := (t / 3 + 1) * 3

def State.tokEn (s : State) : Bool := s.eff .tok s.tok.en
def State.maskEn (s : State) : Bool := s.eff .mask s.tok.maskEn
def State.specEn (s : State) : Bool := s.eff .spec s.tok.specEn
def State.rampEn (s : State) : Bool := s.eff .ramp s.ramp.en
def State.txtEn (s : State) : Bool := s.eff .txt s.txt.en
def State.pinEn (s : State) : Bool := s.eff .pin s.txt.pinEn
def State.clsEn (s : State) : Bool := s.eff .cls s.cls.en
def State.treEn (s : State) : Bool := s.eff .tre s.tre.en
def State.treFen (s : State) : Bool := s.eff .fen s.tre.fen
def State.treTest (s : State) : Bool := s.eff .test s.tre.test
def State.dspEn (s : State) : Bool := s.eff .dsp s.dsp.en
def State.lndEn (s : State) : Bool := s.eff .lnd s.lnd.en
def State.cqIE (s : State) : Bool := s.eff .cqIE s.lnd.cqIE
def State.nqIE (s : State) : Bool := s.eff .nqIE s.lnd.nqIE
def State.injEn (s : State) : Bool := s.eff .inj s.lnd.injEn

/-! ### Records by index -/

def State.entry (s : State) (i : Nat) : Entry := (Tab.get s.man.entries i).getD (Entry.init 1)
def State.setEntry (s : State) (i : Nat) (e : Entry) : State :=
  { s with man := { s.man with entries := Tab.set s.man.entries i e } }
def State.updEntry (s : State) (i : Nat) (f : Entry → Entry) : State := s.setEntry i (f (s.entry i))
def State.updReq (s : State) (i : Nat) (f : Req → Req) : State :=
  s.updEntry i fun e => { e with req := f e.req }

def State.handleOf (s : State) (i : Nat) : Handle := mkHandle (s.entry i).gen i

/-- The index of a handle whose generation matches a live entry (R136, R137). -/
def State.live (s : State) (h : Handle) : Option Nat :=
  let e := s.entry (hIdx h)
  if e.gen = hGen h ∧ e.state ≠ .free then some (hIdx h) else none

def State.domOf (s : State) (d : Nat) : Domain := (Tab.get s.doms d).getD (Domain.init (d == 0))
def State.setDom (s : State) (d : Nat) (x : Domain) : State := { s with doms := Tab.set s.doms d x }
def State.updDom (s : State) (d : Nat) (f : Domain → Domain) : State := s.setDom d (f (s.domOf d))

/-- The epoch of a domain's slot. -/
def Domain.epoch (x : Domain) (sel : Bool) : Option Epoch := if sel then x.ep1 else x.ep0
def Domain.setEpoch (x : Domain) (sel : Bool) (e : Option Epoch) : Domain :=
  if sel then { x with ep1 := e } else { x with ep0 := e }

/-- The epoch an entry is bound to (R140). -/
def State.epochOf (s : State) (e : Entry) : Option Epoch := (s.domOf e.dom).epoch e.esel

def Region.none : Region := ⟨false, false, false, 0, 0, 0, 1⟩
def State.region (s : State) (i : Nat) : Region := (Tab.get s.mem.rgns i).getD Region.none

def Slot.empty : Slot := ⟨none, 0, [], 0⟩
def State.slot (s : State) (i : Nat) : Slot := (Tab.get s.pil.slots i).getD Slot.empty
def State.setSlot (s : State) (i : Nat) (x : Slot) : State :=
  { s with pil := { s.pil with slots := Tab.set s.pil.slots i x } }
def State.job (s : State) (i : Nat) : Option Job := (s.slot i).job
/-- Put a job in a slot, or empty it; `free` then holds the stamp at which it became empty (14 R317). -/
def State.setJob (s : State) (i : Nat) (j : Option Job) : State :=
  s.setSlot i { s.slot i with job := j, free := if j.isNone then max (s.slot i).free s.tally else (s.slot i).free }

def State.inst (s : State) (i : Nat) : Option GInst := Tab.get s.dsp.insts i
def State.setInst (s : State) (i : Nat) (g : GInst) : State :=
  { s with dsp := { s.dsp with insts := Tab.set s.dsp.insts i g } }
def State.updInst (s : State) (i : Nat) (f : GInst → GInst) : State :=
  match s.inst i with
  | some g => s.setInst i (f g)
  | none => s

/-- The top instance to which an instance belongs (08 R159): subgraphs nest at most four deep (R158). -/
def State.topOf (s : State) : Nat → Nat → Nat
  | 0, n => n
  | k + 1, n => match (s.inst n).bind fun g => g.parent with
    | some p => s.topOf k p.1
    | none => n
def State.rootOf (s : State) (n : Nat) : Nat := s.topOf 5 n
def State.rootInst (s : State) (n : Nat) : Option GInst := s.inst (s.rootOf n)

/-- A mask slot that no image has used. DESIGN CHOICE: its generation is 0, so that its first assignment gives 1 (log entry 85). -/
def MaskDir.none : MaskDir := ⟨false, 0, 0, 0, [], 0⟩
def State.mask (s : State) (i : Nat) : MaskDir := (Tab.get s.tok.masks i).getD MaskDir.none

/-- A tree frame that no step has claimed. DESIGN CHOICE: its generation is 0, so that its first claim gives 1 (log entry 85). -/
def TFrame.free : TFrame := ⟨0, false, []⟩
def State.tframe (s : State) (i : Nat) : TFrame := (Tab.get s.tok.frames i).getD TFrame.free

def Port.idle : Port := ⟨[], [], 0, none, none, false⟩
def State.port (s : State) (p : Nat) : Port := (Tab.get s.mem.ports p).getD Port.idle
def State.setPort (s : State) (p : Nat) (x : Port) : State :=
  { s with mem := { s.mem with ports := Tab.set s.mem.ports p x } }

def State.ttc (s : State) (c : Nat) : TtClass := (s.tt.cls[c]?).getD TtClass.init
def State.setTtc (s : State) (c : Nat) (x : TtClass) : State :=
  { s with tt := { s.tt with cls := putAt TtClass.init s.tt.cls c x } }

def State.group (s : State) (g : Nat) : Group := (s.fry.grp[g]?).getD Group.init
def State.setGroup (s : State) (g : Nat) (x : Group) : State :=
  { s with fry := { s.fry with grp := putAt Group.init s.fry.grp g x } }

/-- Advance the counter that the free values of Config are applied to (log entry 2). -/
def State.draw (s : State) : State := { s with fresh := s.fresh + 1 }

/-! ### Counters -/

/-- n events `ev` of bank b at the current tally (R365). -/
def State.count (s : State) (b ev n : Nat) : State :=
  if n = 0 then s else { s with cnt := { s.cnt with now := (b, ev, n) :: s.cnt.now } }

/-- A write that is ignored, rejected or refused counts as event 0x02 of the bank (R359). -/
def State.ignored (s : State) (b : Nat) : State := s.count b 0x02 1

/-- Events of one kind in a bank's list. -/
def eventsOf (es : List (Nat × Nat)) (ev : Nat) : Nat :=
  if ev = 0 then 0 else es.foldl (fun a p => if p.1 = ev then a + p.2 else a) 0

/-- One tally's additions to a bank, counter 0 first, with the carry of a chain (R365, R366). -/
def addBank (es : List (Nat × Nat)) : Nat → Option Nat → List Counter → List Counter
  | _, _, [] => []
  | i, carry, c :: r =>
    let add := match carry with
      | some k => k
      | none => if c.en then eventsOf es c.event else 0
    let v := c.value + add
    let feeds := c.chain && decide (i < 15)
    { c with value := v % 2 ^ 32, ovf := c.ovf || (decide (v ≥ 2 ^ 32) && !feeds) } ::
      addBank es (i + 1) (if feeds then some (v / 2 ^ 32) else none) r

/-- Add the events stamped before the new tally, `d` counts further on (R365, R367 event 0x01). -/
def Counters.flush (c : Counters) (d : Nat) : Counters :=
  { c with
    now := []
    banks := c.banks.mapIdx fun b l =>
      if bitAt c.freeze b then l
      else addBank ((0x01, d) :: (c.now.filter fun e => e.1 = b).map fun e => e.2) 0 none l }

/-! ### Window and regions (13) -/

def Region.has (r : Region) (a : Nat) : Bool := r.v && decide (r.base ≤ a) && decide (a < r.base + r.size * 65536)

/-- May domain d make this access through region r (R288)? -/
def Region.grants (r : Region) (d : Nat) (wr shared : Bool) : Bool :=
  if wr then decide (r.owner = d) && r.wr else decide (r.owner = d) || (shared && r.shared && decide (r.owner = 0))

/-- Do the regions cover [a, e) for the access? Each round steps over one region. -/
def coverFrom (rs : List Region) (ok : Region → Bool) : Nat → Nat → Nat → Bool
  | 0, a, e => decide (e ≤ a)
  | n + 1, a, e =>
    if e ≤ a then true
    else match rs.find? fun r => r.has a && ok r with
      | some r => coverFrom rs ok n (r.base + r.size * 65536) e
      | none => false

/-- The check of R287: window and regions, for n bytes at a. -/
def State.access (s : State) (d a n : Nat) (wr shared : Bool) : Bool :=
  let rs := s.mem.rgns.map fun p => p.2
  decide (a + n ≤ s.mem.win * 2 ^ 30) && coverFrom rs (fun r => r.grants d wr shared) (rs.length + 1) a (a + n)

/-- Lies in regions owned by the domain (the loader's checks). -/
def State.owned (s : State) (d a n : Nat) : Bool := s.access d a n false false
/-- Lies in regions owned by the domain with WR set. -/
def State.ownedWr (s : State) (d a n : Nat) : Bool := s.access d a n true false

/-- The check of R287 for a request: a load reads as the job's domain, a snapshot writes for domain 0. -/
def State.reqOk (s : State) (q : MReq) : Bool :=
  match q.who with
  | .ldm sl _ _ =>
    match s.job sl with
    | some j => s.access j.dom q.line 1 false true
    | none => true
  | .snap _ => s.ownedWr 0 q.line 128

/-- A command overruns: a job on its core, or a call on its unit, an orphaned one too (08 R174, R175, R179). -/
def State.overruns (s : State) : Bool :=
  (s.pil.slots.any fun p => match p.2.job with
    | some j => j.lateAt.isSome || j.calls.any fun c => c.lateAt.isSome
    | none => false) || s.dsp.orphans.any fun p => p.2.lateAt.isSome

/-- MCLK edges, the even tallies, from a up to b (00 clocks, R8). -/
def mclkEdges (a b : Stamp) : Nat := (b + 1) / 2 - (a + 1) / 2

/-- ACLK edges stamped from a up to b: of each three tallies the first and the third carry one (15 R342). -/
def aclkEdges (a b : Stamp) : Nat := (b + 2) / 3 + b / 3 - ((a + 2) / 3 + a / 3)

/-- Is the classifier array busy: has a CLASSIFY started that is not complete, an orphaned one included? -/
def State.arrayBusy (s : State) : Bool :=
  let on := fun (c : Call) => decide (c.op = .classify) && c.started.isSome
  (s.pil.slots.any fun p => match p.2.job with
    | some j => j.calls.any on
    | none => false) || s.dsp.orphans.any fun p => on p.2

/-- Core-cycles up to t in which a core has an occupied job slot and issues nothing. -/
def State.idleCycles (s : State) (t : Stamp) : Nat :=
  (((List.range 16).filter fun c => (List.range 4).any fun k => (s.job (4 * c + k)).isSome).map fun c =>
    mclkEdges (match Tab.get s.cnt.issued c with
      | some u => max s.tally (u + 1)
      | none => s.tally) t).sum

/-- Lane-cycles up to t in which Token Out presents a word that is not taken (12 R268). -/
def State.outWaits (s : State) (t : Stamp) : Nat :=
  if !s.alive || !s.rampEn then 0
  else ((List.range 8).map fun n =>
    match s.ramp.outq.find? fun w => decide (w.lane = n) with
    | none => 0
    | some w => t - max (max s.tally w.since) (match Tab.get s.pins.toWord n with
        | some x => x.1 + 1
        | none => 0)).sum

/-- Port-cycles up to t in which a memory port presents a request that is not taken (12 R272). -/
def State.portWaits (s : State) (t : Stamp) : Nat :=
  if !s.alive || !s.mem.en then 0
  else (s.mem.ports.map fun p =>
    match p.2.waitq with
    | [] => 0
    | q :: _ =>
      if p.2.out.length ≥ 256 || !s.reqOk q then 0
      else mclkEdges (match p.2.shown with
        | some x => max s.tally (x.1 + 1)
        | none => s.tally) t).sum

/-- The events that are edges of a clock at which a condition holds (R367): GCLK edges with an overrun in progress, MCLK edges with
the start queue not empty, core-cycles without an issue, ACLK edges with the array busy, and cycles in which VALID is high and READY low.
The condition is read as the last event before them left it (log entry 70). -/
def State.edgeEvents (s : State) (t : Stamp) : List (Nat × Nat × Nat) :=
  if !s.running then [] else
  [(3, 0x13, if s.overruns then t - s.tally else 0), (4, 0x18, if s.dsp.startQ.isEmpty then 0 else mclkEdges s.tally t),
   (5, 0x12, s.idleCycles t), (8, 0x17, if s.arrayBusy then aclkEdges s.tally t else 0), (11, 0x1A, s.outWaits t),
   (12, 0x18, s.portWaits t)]

/-- Move the tally forward to t; it never moves back (R11: events are applied in stamp order; log entry 1). -/
def State.setTally (s : State) (t : Stamp) : State :=
  if t ≤ s.tally then s
  else { s with tally := t, cnt := ({ s.cnt with now := s.edgeEvents t ++ s.cnt.now } : Counters).flush (t - s.tally) }

/-! ### The Landing port (11 R242, 12 R274) -/

/-- Has nothing taken the present LCLK edge? Register accesses and acceptances share the port, one an edge. -/
def State.portFree (s : State) : Bool := decide (s.lnd.busyAt ≠ some (edgeUp 3 s.tally))
def State.takePort (s : State) : State := { s with lnd := { s.lnd with busyAt := some (edgeUp 3 s.tally) } }

/-! ### Interrupt -/

/-- One more value due at e on an output. -/
def drive {α : Type} (e : Stamp) (v : α) (l : Recent α) : Recent α := ((e, v) :: l).take 16

/-- The value of an output that is due at e. -/
def drivenAt {α : Type} (e : Stamp) (l : Recent α) : Option α := (l.find? fun p => decide (p.1 = e)).map fun p => p.2

/-- A pulse of IRQ at the LCLK edge of a stamp (R275); outside service the line stays low (R286). -/
def State.irq (s : State) (t : Stamp) : State :=
  let e := edgeUp 3 t
  { s with pins := { s.pins with irq :=
      if s.running && !s.pins.irq.contains e then (e :: s.pins.irq).take 16 else s.pins.irq } }

/-! ### Overruns (08 R174, R175) -/

/-- The class of an engine call (R173, R224). -/
def CallOp.cls : CallOp → Nat
  | .classify => 1 | .tree => 2 | .feature => 2 | .matchOp => 3 | .xlate => 3

/-- The units of class n that an overrun has held since `start` or before: cores, or the units of calls, orphaned ones among
them (R175). -/
def overUnits (s : State) (n : Nat) (start : Stamp) : List Nat :=
  let jobs := s.pil.slots.filterMap fun p => p.2.job.map fun j => (p.1, j)
  let old := fun (o : Option Stamp) => match o with
    | some x => decide (x ≤ start)
    | none => false
  (if n = 0 then (jobs.filter fun p => old p.2.lateAt).map fun p => p.1 / 4
    else ((jobs.flatMap fun p => p.2.calls) ++ s.dsp.orphans.map fun o => o.call).filterMap fun (c : Call) =>
      if c.op.cls = n ∧ old c.lateAt then c.started.map fun x => x.2 else none).eraseDups

/-! ### Notice queue and completions -/

def nqReserved (l : Landing) : Nat := l.opens.length

/-- Header word W0 (R239). -/
def hdrW0 (op msg blk dom len status tag : Nat) : Word :=
  pack 64 [(0, op), (8, msg), (10, blk), (16, dom % 256), (24, len), (32, status), (40, tag)]

def padTo (n : Nat) (l : List Word) : List Word := (l ++ List.replicate n 0).take n

/-- Cut a message of words into cells of eight. -/
def cellsOf : Nat → List Word → List CellWords
  | 0, _ => []
  | n + 1, ws => padTo 8 ws :: cellsOf n (ws.drop 8)

def tagCells (cs : List CellWords) : List NqCell :=
  cs.mapIdx fun i c => ⟨c, decide (i = 0), decide (i + 1 = cs.length), false, false⟩

/-- A rise of the notice queue's use to its level raises the interrupt (R245). -/
def nqLevelIrq (before : Nat) (s : State) : State :=
  if before < s.lnd.nqLevel ∧ s.lnd.nqLevel ≤ s.lnd.nq.length ∧ s.nqIE then s.irq s.tally else s

/-- Count a dropped notice in the gap marker at the tail, or place one (R244). -/
def gapNotice (s : State) (t : Stamp) : List NqCell :=
  match s.lnd.nq.getLast? with
  | some c =>
    if c.gap then
      s.lnd.nq.dropLast ++ [{ c with words :=
        (updAt (updAt c.words 2 fun w => w + 1) 4 fun _ => BitVec.ofNat 64 t) }]
    else s.lnd.nq ++ [newGap]
  | none => [newGap]
where
  newGap : NqCell :=
    ⟨padTo 8 [hdrW0 0 3 s.clk.blkNum 0 0 0 0, 0, 1, BitVec.ofNat 64 t, BitVec.ofNat 64 t], true, true, true, false⟩

/-- Store a notice of n cells, or drop it whole (R244). -/
def State.putNotice (s : State) (cs : List CellWords) (t : Stamp) : State :=
  let used := s.lnd.nq.length
  if used + nqReserved s.lnd + cs.length > 2047 then
    (nqLevelIrq used { s with lnd := { s.lnd with
      nq := gapNotice s t, dropped := (s.lnd.dropped + 1) % 2 ^ 32 } }).count 1 0x13 1
  else
    (nqLevelIrq used { s with lnd := { s.lnd with nq := s.lnd.nq ++ tagCells cs } }).count 1 0x12 1

/-- Store the completion of an open command with its status, its DSTAMP and W3 onward, and end its reservation (R240, R242). -/
def State.putDone (s : State) (id status : Nat) (dstamp : Stamp) (ws : List Word) : State :=
  match s.lnd.opens.find? fun o => o.id = id with
  | none => s
  | some o =>
    let used := s.lnd.nq.length
    let c := padTo 8 ([hdrW0 o.op 1 s.clk.blkNum o.dom 0 status o.tag, BitVec.ofNat 64 o.stamp,
      BitVec.ofNat 64 dstamp] ++ ws)
    (nqLevelIrq used { s with lnd := { s.lnd with
        opens := s.lnd.opens.filter fun q => q.id ≠ id
        nq := s.lnd.nq ++ [⟨c, true, true, false, false⟩] } }).count 1 0x11 1

/-! ### The order of messages (R12, R257, R262) -/

/-- The opcode of a notice that waits, and whether it concerns no request: its HANDLE is zero (R240). -/
def WaitMsg.head (m : WaitMsg) (n : Nat) : Word := match m.what with
  | .notice _ (x :: _) => (x[n]?).getD 0
  | _ => 0
def WaitMsg.op (m : WaitMsg) : Nat := fld (m.head 0) 0 8
def WaitMsg.block (m : WaitMsg) : Bool := match m.what with
  | .notice _ _ => decide (m.head 2 = 0)
  | _ => false
def WaitMsg.isFence (m : WaitMsg) : Bool := match m.what with
  | .fence _ => true
  | _ => false
/-- The command whose completion it is. -/
def WaitMsg.cmd (m : WaitMsg) : Option Nat := match m.what with
  | .notice _ _ => none
  | .done id _ _ _ => some id
  | .fence id => some id

/-- The starts of the current slots that an overrun may still cover whole: a SLOT_FORFEIT with that stamp may come at the slot's end
(08 R175). -/
def State.atRisk (s : State) : List Stamp :=
  (List.range 4).filterMap fun n =>
    let c := s.ttc n
    if c.av && !(overUnits s n c.posAt).isEmpty then some c.posAt else none

/-- May a SLOT_FORFEIT that R12 or R262 places before the message still come? At one stamp it follows what the Landing and the Timetable
itself raise, and precedes the notices of later subsystems (R10). -/
def State.forfeitAhead (s : State) (m : WaitMsg) : Bool :=
  s.atRisk.any fun p => decide (p < m.at') || (decide (p = m.at') && m.block && !([0x8D, 0x8E, 0x8F].contains m.op))

/-- Must a message wait? It waits behind a FENCE of an earlier stamp; a notice that concerns no request also behind an earlier one of its
kind and for a SLOT_FORFEIT; a FENCE for every message of an earlier stamp. -/
def State.mustWait (s : State) (m : WaitMsg) : Bool :=
  let w := s.lnd.wait
  (w.any fun x => x.isFence && decide (x.at' < m.at')) ||
    (m.block && (s.forfeitAhead m || w.any fun x => x.block && decide (x.at' ≤ m.at'))) ||
    (m.isFence && (s.forfeitAhead m || w.any fun x => decide (x.at' < m.at')))

/-- A message enters the queue. -/
def State.enter (s : State) (m : WaitMsg) : State := match m.what with
  | .notice t cs => s.putNotice cs t
  | .done id st d ws => s.putDone id st d ws
  | .fence id => s.putDone id stOK s.tally []

/-- Its place among those that wait: behind every one whose stamp is no later. -/
def insWait (m : WaitMsg) : List WaitMsg → List WaitMsg
  | [] => [m]
  | x :: r => if m.at' < x.at' then m :: x :: r else x :: insWait m r

/-- A message enters the queue now, or waits. -/
def State.post (s : State) (m : WaitMsg) : State :=
  if s.mustWait m then { s with lnd := { s.lnd with wait := insWait m s.lnd.wait } } else s.enter m

/-- The messages that need wait no longer enter, in order. -/
def drainList : List WaitMsg → State → State
  | [], s => s
  | m :: r, s =>
    let s' : State := { s with lnd := { s.lnd with wait := [] } }
    if s'.mustWait m then { s with lnd := { s.lnd with wait := m :: r } } else drainList r (s'.enter m)

def State.drain (s : State) : State := drainList s.lnd.wait s

/-- Raise a notice of n cells for an event stamped t. -/
def State.noteCells (s : State) (cs : List CellWords) (t : Stamp) : State := s.post ⟨t, .notice t cs⟩

/-- Store a one-cell notice: opcode, domain, handle, stamp of its event, and W3 onward (R239, R240, R261). -/
def State.noteNow (s : State) (op dom : Nat) (h : Handle) (t : Stamp) (ws : List Word) : State :=
  s.noteCells (cellsOf 1 ([hdrW0 op 2 s.clk.blkNum dom 0 0 0, BitVec.ofNat 64 t, BitVec.ofNat 64 h.toNat] ++ ws)) t

/-- The entry that a handle names, while a MIGRATE_IN or REUSE builds it. The handle 0 of a notice names no request. -/
def State.building (s : State) (h : Handle) : Option Nat :=
  if h = 0 then none else (s.live h).bind fun i => (s.entry i).req.build.map fun _ => i

/-- Raise a one-cell notice. While the entry it concerns is being built it waits for the command's completion, the first message about
the new handle (R262), or for a fence (log entry 80). -/
def State.note (s : State) (op dom : Nat) (h : Handle) (t : Stamp) (ws : List Word) : State :=
  match s.building h with
  | none => s.noteNow op dom h t ws
  | some i => s.updReq i fun r => { r with build := r.build.map fun b => { b with held := b.held ++ [⟨op, dom, t, ws⟩] } }

/-- Is the command open: accepted, and not completed, be its completion stored or not? -/
def State.cmdOpen (s : State) (id : Nat) : Bool :=
  (s.lnd.opens.any fun o => decide (o.id = id)) && !(s.lnd.wait.any fun m => decide (m.cmd = some id))

/-- Complete an open command with its status and W3 onward; its reservation stands until the completion is stored (R240, R242). -/
def State.complete (s : State) (id status : Nat) (ws : List Word) : State :=
  if s.cmdOpen id then s.post ⟨s.tally, .done id status s.tally ws⟩ else s

/-- The notices that an entry's build holds back and that f names are raised, ordered no earlier than t0. -/
def State.letGo (s : State) (i : Nat) (t0 : Stamp) (f : HeldNote → Bool) : State :=
  match (s.entry i).req.build with
  | none => s
  | some b =>
    let h := s.handleOf i
    let s := s.updReq i fun r => { r with build := some { b with held := b.held.filter fun n => !f n } }
    (b.held.filter f).foldl (fun s n => s.post ⟨max t0 n.stamp, .notice n.stamp (cellsOf 1
      ([hdrW0 n.op 2 s.clk.blkNum n.dom 0 0 0, BitVec.ofNat 64 n.stamp, BitVec.ofNat 64 h.toNat] ++ n.words))⟩) s

/-- The build of entry i ends: its command completes, and the notices that waited follow. Of a command that does not succeed they go first,
in the order of their stamps (R12, R262). -/
def State.endBuild (s : State) (i : Nat) (status : Nat) (ws : List Word) : State :=
  match (s.entry i).req.build with
  | none => s
  | some b =>
    let finish := fun (s : State) => s.updReq i fun r => { r with build := none }
    if status = 0 then finish ((s.complete b.cmd status ws).letGo i s.tally fun _ => true)
    else finish ((s.letGo i 0 fun _ => true).complete b.cmd status ws)

/-- Complete an open command if there is one. -/
def State.completeOpt (s : State) (id : Option Nat) (status : Nat) (ws : List Word) : State :=
  match id with
  | some i => s.complete i status ws
  | none => s

/-! ### Logbook records -/

/-- A record as eight words, its CRC in word 7 (R330). -/
def LRec.words (r : LRec) : List Word :=
  let ws : List Word := [
    pack 64 [(0, r.typ), (8, r.src), (24, r.cls), (32, r.dom), (40, r.count), (56, nb r.inj), (57, 1)],
    BitVec.ofNat 64 r.first, BitVec.ofNat 64 r.last,
    pack 64 [(0, r.seq), (32, r.boot), (48, r.blk)], r.d0, r.d1, r.d2]
  let bytes := (ws.flatMap fun w => leBytes 8 w.toNat) ++ List.replicate 4 0
  ws ++ [pack 64 [(32, (crc32c bytes).toNat)]]

/-- The LOG notice of a record (R261, R333): two cells. -/
def State.logNotice (s : State) (r : LRec) (t : Stamp) : State :=
  s.noteCells (cellsOf 2 ([hdrW0 0x90 2 s.clk.blkNum r.dom 1 0 0, BitVec.ofNat 64 t, 0] ++ r.words)) t

/-- A record before it is numbered (R330). It carries INJ = 1 while an injected fault is taking effect (R320). -/
def State.newRec (s : State) (typ src cls dom : Nat) (inj : Bool) (first last : Stamp) (d0 d1 d2 : Word) : LRec :=
  ⟨typ, src, cls, dom, 1, inj || s.wch.injNow, first, last, 0, 0, d0, d1, d2, s.clk.blkNum, false⟩

/-- Staging takes new contents; a rise of its use to its level raises the interrupt (13 R299). -/
def State.putStaging (s : State) (q : List LRec) (t : Stamp) : State :=
  let n := s.wch.staging.length
  let s := { s with wch := { s.wch with staging := q } }
  if s.wch.stgQ.ie ∧ n < s.wch.stgQ.level ∧ s.wch.stgQ.level ≤ q.length then s.irq t else s

/-- Give a record the next SEQ (R333). -/
def State.withSeq (s : State) (r : LRec) : State × LRec :=
  let r' := { r with seq := s.log.nextSeq, boot := s.log.boot }
  ({ s with log := { s.log with nextSeq := (s.log.nextSeq + 1) % 2 ^ 32 } }, r')

/-- The Logbook is full: every further record is lost. While an erase runs, which alone clears FULL, records wait in staging again
(R336, R337). -/
def Logbook.atFull (l : Logbook) : Bool := l.full && !l.erasing

/-- A record lost: counted, and marked by the LOST record at the tail of a full staging queue (R298, R333). -/
def State.loseRec (s : State) (r : LRec) (t : Stamp) : State :=
  let s := ({ s with log := { s.log with lost := s.log.lost + 1 } } : State).count 14 0x19 1
  if s.log.atFull then s
  else match s.wch.staging.getLast? with
    | some l =>
      if l.typ = 0x0E then
        { s with wch := { s.wch with staging := s.wch.staging.dropLast ++
          [{ l with count := min 65535 (l.count + 1), last := r.last }] } }
      else
        let q := s.withSeq (s.newRec 0x0E (14 * 256) 0 0 false r.first r.last 0 0 0)
        ((q.1.putStaging (q.1.wch.staging ++ [q.2]) t).logNotice q.2 t).count 14 0x17 1
    | none => s

/-- A record enters staging at stamp t (R333); a stopped Logbook keeps it as a notice only (R328) or loses it (R337). -/
def State.stage (s : State) (r : LRec) (t : Stamp) : State :=
  if s.log.atFull then s.loseRec r t
  else if s.log.failed then s.logNotice r t
  else if s.wch.staging.length ≥ 255 then s.loseRec r t
  else
    let q := s.withSeq r
    ((q.1.putStaging (q.1.wch.staging ++ [q.2]) t).logNotice q.2 t).count 14 0x17 1

def sameKey (a b : LRec) : Bool := a.typ = b.typ && a.src = b.src && a.cls = b.cls && a.dom = b.dom

/-- Close the coalescing places that `p` names, earliest window first: their records enter staging (R332). -/
def State.closePlaces (s : State) (p : LRec → Bool) (t : Stamp) : State :=
  (s.wch.coal.filter p).foldl (fun s r => s.stage r t)
    { s with wch := { s.wch with coal := s.wch.coal.filter fun r => !p r } }

/-- A coalesced record (R332). Windows that ended before t are closed first. -/
def State.coalesce (s : State) (r : LRec) (t : Stamp) : State :=
  let s := s.closePlaces (fun c => decide (c.first + 2400000 ≤ t)) t
  if s.wch.coal.any (sameKey r) then
    let cs := s.wch.coal.map fun c => if sameKey r c then { c with count := c.count + 1, last := t } else c
    (({ s with wch := { s.wch with coal := cs } } : State).count 14 0x18 1).closePlaces (fun c => decide (c.count ≥ 65535)) t
  else
    let s := match s.wch.coal with
      | c :: _ => if s.wch.coal.length ≥ 32 then s.closePlaces (fun q => decide (q = c)) t else s
      | [] => s
    { s with wch := { s.wch with coal := s.wch.coal ++ [r] } }

/-- A record of the manual's types: coalesced types open a window, the others are staged at once (R331). -/
def State.logRec (s : State) (typ sub inst cls dom : Nat) (inj : Bool) (t : Stamp) (d0 d1 d2 : Word) : State :=
  let r := s.newRec typ (inst % 256 + 256 * sub) cls dom inj t t d0 d1 d2
  if typ = 0x01 ∨ typ = 0x05 ∨ typ = 0x06 ∨ typ = 0x10 then s.coalesce r t else s.stage r t

/-- A VERDICT record, written while VY_LOG_CTL.VERD = 1 (R331). -/
def State.logVerdict (s : State) (a : Act) (esc : Bool) (src dom : Nat) (h : Handle) (epoch chunk pos n : Nat)
    (t : Stamp) : State :=
  if s.log.verd then
    s.logRec 0x08 11 0 (a.code + 8 * nb esc + 16 * src) dom false t (pack 64 [(0, h.toNat), (32, epoch)])
      (BitVec.ofNat 64 chunk) (pack 64 [(0, pos % 2 ^ 32), (32, n)])
  else s

/-! ### Node memory (13) -/

/-- A response with MS_ERR = 1 to a unit whose requests the model does not show (log entry 8): it counts as poisoned in every word
(12 R272). -/
def State.unitErr (s : State) : State :=
  (({ s with mem := { s.mem with mserr := (s.mem.mserr + 1) % 65536 } } : State).count 12 0x13 1).count 12 0x14 16

/-- Bytes of a save frame, and of a view slot (08 R177, 04 R75). -/
def frameSize : Nat := 131072

/-- May the block use n bytes at a of an area that a register names: domain 0's regions cover it (13 R287; log entry 72)? -/
def State.areaOk (s : State) (a n : Nat) : Bool := s.ownedWr 0 a n

/-- May domain d read every one of some ranges of an image (R287)? -/
def State.readsOk (s : State) (d : Nat) (l : List (Nat × Nat)) : Bool := l.all fun x => s.access d x.1 x.2 false true

/-- A failed check (R287): counted in VY_MEM_VIOL and bank 12. -/
def State.viol (s : State) : State :=
  ({ s with mem := { s.mem with viol := (s.mem.viol + 1) % 2 ^ 32 } } : State).count 12 0x12 1

def State.rd (s : State) (a n : Nat) : List Byte := memRead s.mem.bytes a n
def State.rd64 (s : State) (a : Nat) : Word := BitVec.ofNat 64 (leNat (s.rd a 8))
def State.rd32 (s : State) (a : Nat) : BitVec 32 := BitVec.ofNat 32 (leNat (s.rd a 4))

/-- Is any 64-bit word of [a, a+n) poisoned (12 R272)? -/
def State.poisoned (s : State) (a n : Nat) : Bool := s.mem.pois.any fun w => decide (w < a + n) && decide (a < w + 8)

/-- A write of node memory. Units come to it only while requests are issued: before, they wait (R309). -/
def State.wr (s : State) (a : Nat) (bs : List Byte) : State :=
  { s with mem := { s.mem with bytes := memWrite s.mem.bytes a bs } }

/-- A load that returns poisoned zero because its page or scratch word is another holder's (09 R190, R192). -/
def State.stale (s : State) : State :=
  ({ s with pil := { s.pil with stale := (s.pil.stale + 1) % 2 ^ 48 } } : State).count 5 0x1B 1

/-! ### Page lists and areas (R291, R295) -/

structure Run where
  page  : Nat
  owner : Nat
  gen   : Nat
  role  : Nat
  model : Nat
  run   : Nat
  resv  : Bool
deriving DecidableEq, Repr

def runOf (w : Word) : Run := ⟨fld w 0 24 * 65536, fld w 24 8, fld w 32 8, fld w 40 3, fld w 43 2, fld w 45 4, fld w 49 15 ≠ 0⟩

/-- The page list of an entry. -/
def State.runs (s : State) (plist npage : Nat) : List Run :=
  (List.range npage).map fun i => runOf (s.rd64 (plist + 8 * i))

/-- The pages of an area in list order: block address, owner and generation of each. -/
def areaPages (rs : List Run) (role model : Nat) : List (Nat × Nat × Nat) :=
  (rs.filter fun r => r.role = role && (role ≠ 3 || r.model = model)).flatMap fun r =>
    (List.range (2 ^ r.run)).map fun i => (r.page + i * 65536, r.owner, r.gen)

/-- Block address of an area offset (R295). -/
def areaAddr (ps : List (Nat × Nat × Nat)) (o : Nat) : Option Nat :=
  (ps[o / 65472]?).map fun p => p.1 + 0x40 + o % 65472

def areaSize (ps : List (Nat × Nat × Nat)) : Nat := ps.length * 65472

/-- The page header of R292 in the layout of R293. -/
def pageHeader (owner gen : Nat) (h : Handle) : List Byte :=
  leBytes 8 (owner + gen * 256 + h.toNat * 2 ^ 32) ++ List.replicate 56 0

/-- The comparison of R192 and R292: the page's owner and generation are those its list entry records. -/
def State.pageOk (s : State) (page owner gen : Nat) : Bool :=
  let w := s.rd64 page
  decide (fld w 0 8 = owner) && decide (fld w 8 8 = gen)

/-- May n bytes at an area offset be read for domain d: their pages are listed, carry the headers that the list records, and lie in
regions that the domain may read (R287, R292)? Pages and regions are both aligned to 64 KiB. -/
def State.areaReads (s : State) (d : Nat) (ps : List (Nat × Nat × Nat)) (o n : Nat) : Bool :=
  decide (n = 0) || (List.range ((o + n - 1) / 65472 - o / 65472 + 1)).all fun k =>
    match ps[o / 65472 + k]? with
    | some p => s.pageOk p.1 p.2.1 p.2.2 && s.owned d p.1 65536
    | none => false

/-- Do the pages of n bytes at an area offset lie in regions that the domain may read (R287)? -/
def State.areaOwned (s : State) (d : Nat) (ps : List (Nat × Nat × Nat)) (o n : Nat) : Bool :=
  decide (n = 0) || (List.range ((o + n - 1) / 65472 - o / 65472 + 1)).all fun k =>
    match ps[o / 65472 + k]? with
    | some p => s.owned d p.1 65536
    | none => false

/-- A read of an area that failed its check is counted: in VY_MEM_VIOL where the regions refuse it (R287), in VY_PIL_STALE where a page's
header differs (R292, 09 R192; log entry 81). -/
def State.areaFail (s : State) (d : Nat) (ps : List (Nat × Nat × Nat)) (o n : Nat) : State :=
  if s.areaOwned d ps o n then s.stale else s.viol

/-- Write bytes to an area one by one, each page's header compared first. Beyond the area and outside the domain's regions the check of
R287 fails. -/
def State.wrArea (s : State) (d : Nat) (ps : List (Nat × Nat × Nat)) : Nat → List Byte → State × Bool
  | _, [] => (s, true)
  | o, b :: r =>
    match ps[o / 65472]? with
    | none => (s.viol, false)
    | some p =>
      if !s.ownedWr d (p.1 + 0x40 + o % 65472) 1 then (s.viol, false)
      else if !s.pageOk p.1 p.2.1 p.2.2 then (s, false)
      else (s.wr (p.1 + 0x40 + o % 65472) [b]).wrArea d ps (o + 1) r

/-- Read n bytes of an area; a byte beyond it or behind another generation reads as absent. -/
def State.rdArea (s : State) (ps : List (Nat × Nat × Nat)) (o n : Nat) : List (Option Byte) :=
  (List.range n).map fun i =>
    match ps[(o + i) / 65472]? with
    | none => none
    | some p => if s.pageOk p.1 p.2.1 p.2.2 then some (memGet s.mem.bytes (p.1 + 0x40 + (o + i) % 65472)) else none

/-! ### Entries and notices of a request -/

/-- Entries of a domain that are not FREE (07 R155 INUSE). -/
def State.inuse (s : State) (d : Nat) : Nat :=
  (s.man.entries.filter fun p => p.2.state ≠ .free && p.2.dom = d).length

/-- Entries bound to an epoch slot of a domain (07 R140, VY_DOM_MANEP). -/
def State.epCount (s : State) (d : Nat) (sel : Bool) : Nat :=
  (s.man.entries.filter fun p => p.2.state ≠ .free && p.2.dom = d && p.2.esel = sel).length

/-- The END notice, once per entry (07 R144). -/
def State.raiseEnd (s : State) (i outcome : Nat) (deciding : Stamp) (t : Stamp) : State :=
  let e := s.entry i
  if e.endv then s
  else
    ((s.setEntry i { e with outcome := outcome, endv := true }).note 0x80 e.dom (mkHandle e.gen i) t
      [BitVec.ofNat 64 outcome, pack 64 [(0, e.committed), (32, e.released)], BitVec.ofNat 64 deciding]).count 2 0x17 1

/-- An ESCALATE notice (R261) and its VERDICT record: source, action, chunk, first covered position and tokens covered. -/
def State.escalate (s : State) (i src : Nat) (a : Act) (chunk pos n : Nat) (t : Stamp) : State :=
  let e := s.entry i
  let h := mkHandle e.gen i
  (s.note 0x81 e.dom h t [pack 64 [(0, src), (2, a.code), (32, if src = 0 ∨ src = 3 then 0 else chunk)],
    BitVec.ofNat 64 (if src = 0 then pos else 0)]).logVerdict a true src e.dom h e.epoch chunk pos n t

end Sys2Proof.Machine
end

