-- ==== Sys2Proof/Machine/Trigger.lean ====
section
/-! DEFINITION. Trigger.lean: graph triggers and the start queue (08 R159-R161), views waiting for a builder and their slots
(04 R74, R75), and the release window a job sees (09 R187). -/

namespace Sys2Proof.Machine

/-- Does a trigger have to wait: placing off, or no record free for it behind those that wait already (R160)? -/
def State.startWaits (s : State) : Bool := !s.dspEn || decide (s.dsp.insts.length + s.dsp.startQ.length ≥ 2048)

/-- Take the view of a chunk out and free its slot (R75). -/
def State.dropView (s : State) (h : Handle) (k : Nat) : State :=
  { s with txt := { s.txt with views := s.txt.views.filter fun v => !(decide (v.handle = h) && decide (v.k = k)) } }

/-- The graph of a chunk has ended: a built view goes with its slot (R75); one that is not built is still built in its turn, since
every closed chunk's view is (R74), and then freed. -/
def State.freeView (s : State) (h : Handle) (k : Nat) : State :=
  let mine := fun (v : View) => decide (v.handle = h) && decide (v.k = k)
  { s with txt := { s.txt with views :=
      (s.txt.views.filter fun v => !(mine v && v.built)).map fun v => if mine v then { v with gone := true } else v } }

/-- A trigger of a graph (R159): it joins the start queue; a full queue refuses it, unless it is a re-screen or subgraph
trigger, which waits outside (R161). The chunk of a refused trigger has no graph. -/
def State.trigger (s : State) (tr : Trigger) : State :=
  if s.dsp.startQ.length ≥ 65535 then
    if tr.screen || tr.parent.isSome then
      ({ s with dsp := { s.dsp with outside := s.dsp.outside ++ [tr] } } : State).count 4 0x17 1
    else
      let s := s.count 4 0x1C 1
      if tr.answer then s.freeView tr.handle tr.k else s
  else
    let s := if s.startWaits then s.count 4 0x17 1 else s
    { s with dsp := { s.dsp with startQ := s.dsp.startQ ++ [tr] } }

/-- Places that freed in the start queue go to the triggers waiting outside, oldest first (R161). -/
def State.admitOutside (s : State) : State :=
  let n := 65535 - s.dsp.startQ.length
  { s with dsp := { s.dsp with
      startQ := s.dsp.startQ ++ s.dsp.outside.take n
      outside := s.dsp.outside.drop n } }

/-- Is this a top trigger of an answer chunk of h? -/
def Trigger.isChunk (tr : Trigger) (h : Handle) (k : Nat) : Bool :=
  decide (tr.handle = h) && tr.answer && decide (tr.k = k) && tr.parent.isNone && !tr.screen

/-- Withdraw the queued trigger of a dropped chunk (R161). -/
def State.withdraw (s : State) (h : Handle) (k : Nat) : State :=
  let n := (s.dsp.startQ.filter fun tr => tr.isChunk h k).length
  (({ s with dsp := { s.dsp with startQ := s.dsp.startQ.filter fun tr => !tr.isChunk h k } } : State).count 4 0x1D n).admitOutside

/-- Is a top instance of the stream and chunk running? -/
def State.graphRuns (s : State) (h : Handle) (answer : Bool) (k : Nat) : Bool :=
  s.dsp.insts.any fun p => decide (p.2.handle = h) && (p.2.answer == answer) && decide (p.2.k = k) && p.2.parent.isNone

/-- Is a top trigger of the stream and chunk waiting? -/
def State.graphWaits (s : State) (h : Handle) (answer : Bool) (k : Nat) : Bool :=
  (s.dsp.startQ ++ s.dsp.outside).any fun tr =>
    decide (tr.handle = h) && (tr.answer == answer) && decide (tr.k = k) && tr.parent.isNone

/-- The lowest free view slot (R75). -/
def State.freeVSlot (s : State) : Option Nat :=
  (List.range 1024).find? fun n => !(s.txt.views.any fun v => decide (v.slot = some n))

/-- While no slot is free, the views that are not built wait, and each wait is counted once (R75). -/
def State.viewWaits (s : State) : State :=
  match s.freeVSlot with
  | some _ => s
  | none =>
    let n := (s.txt.views.filter fun v => !v.built && !v.waited).length
    ({ s with txt := { s.txt with views := s.txt.views.map fun v => if v.built then v else { v with waited := true } } } : State).count
      7 0x17 n

/-- A closed chunk asks for its view (R74). -/
def State.askView (s : State) (h : Handle) (d k : Nat) (toks : List Nat) (final : Bool) (t : Stamp) : State :=
  ({ s with txt := { s.txt with
    views := s.txt.views ++ [⟨h, d, 0, k, toks, [], 0, [], [], final, false, t, none, false, false⟩] } } : State).viewWaits

/-- A chunk is dropped (R50, R58): its waiting trigger is withdrawn, and its view goes unless its graph runs (R75); DESIGN CHOICE: a view that is
not built yet is not built any more (log entry 78). -/
def State.dropGraph (s : State) (h : Handle) (k : Nat) : State :=
  let s := s.withdraw h k
  if s.graphRuns h true k then s else s.dropView h k

/-- The views of chunks whose torn-down graphs do not start again (R75). -/
def State.dropTorn (s : State) (ts : List Trigger) : State :=
  ts.foldl (fun s tr => if tr.answer then s.dropView tr.handle tr.k else s) s

/-- WEND of R187: the window's end, or all ones where there is none. -/
def wendWord (w : Option Stamp) : Word :=
  match w with
  | some t => BitVec.ofNat 64 t
  | none => BitVec.allOnes 64

end Sys2Proof.Machine
end

