-- ==== Sys2Proof/Machine/Ramp.lean ====
section
/-! DEFINITION. Ramp.lean: the Ramp and Hold (03): chunks, coverage, stops, misses, release, prompt verdicts, Hold use. -/

namespace Sys2Proof.Machine

/-! ### Hold use (R60, R62) -/

/-- Entries in use outside the speculative area: held tokens, and released words that keep an entry. -/
def State.holdUse (s : State) : Nat :=
  (s.man.entries.foldl (fun a p => a + p.2.held) 0) + (s.ramp.outq.filter fun w => w.entry).length

/-- After a change of the use: the peak rises with it, and a crossing of LEVEL raises HOLD_LEVEL (R62, R64). -/
def State.holdWatch (before : Nat) (s : State) (t : Stamp) : State :=
  let u := s.holdUse
  let s := { s with ramp := { s.ramp with peak := max s.ramp.peak u } }
  if before < s.ramp.level ∧ s.ramp.level ≤ u then
    let s := s.note 0x88 0 0 t [BitVec.ofNat 64 u]
    if s.ramp.levelIE then s.irq t else s
  else s

/-! ### Chunks (R42-R44) -/

/-- The end of a chunk's release window; a pass-through domain schedules none (R54, R57). -/
def Chunk.wend (c : Chunk) : Option Stamp :=
  if c.set.passthru then none else some (c.f + 2400 * c.set.deadline)

/-- May a token of chunk stamp x join the open chunk (R43)? -/
def Chunk.takes (c : Chunk) (x : Stamp) : Bool :=
  c.closed.isNone && decide (c.count < c.set.chunk) && decide (c.f ≤ x) && decide (x < c.f + 240 * c.set.close)

/-- The highest effective action of a chunk's tokens, raised to the floor of a FLAG miss (R47, R55). -/
def Chunk.merged (c : Chunk) : Act := c.toks.foldl (fun a h => Act.max a h.act) c.floor
/-- The ESC bits of every verdict that reached the chunk (R47). -/
def Chunk.mergedEsc (c : Chunk) : Bool := c.esc || c.toks.any fun h => h.esc

def State.updChunk (s : State) (i n : Nat) (f : Chunk → Chunk) : State :=
  s.updReq i fun r => { r with chunks := r.chunks.map fun c => if c.num = n then f c else c }

def State.chunk (s : State) (i n : Nat) : Option Chunk := (s.entry i).req.chunks.find? fun c => c.num = n

/-- The open chunk. -/
def Req.openChunk (r : Req) : Option Chunk := r.chunks.find? fun c => c.closed.isNone

/-- Put a chunk that is no longer held with its fate. In a pass-through domain every verdict is late (R57). -/
def Req.bury (r : Req) (c : Chunk) (f : Fate) : Req :=
  { r with
    chunks := r.chunks.filter fun d => d.num ≠ c.num
    past := Tab.set r.past c.num ⟨f, (c.wend).getD 0, c.verdict.isSome⟩ }

/-- Drop a chunk at a stop or cancel (R44, R50, R58): its tokens leave the Hold. -/
def State.dropChunk (s : State) (i : Nat) (c : Chunk) : State :=
  let h := s.handleOf i
  let s := s.updEntry i fun e => { e with held := e.held - c.toks.length, req := e.req.bury c .dropped }
  let s := if c.closed.isNone then s.count 11 0x10 1 else s
  s.dropGraph h c.num

/-! ### Events that wait for their place in a stamp (R48, R57) -/

/-- The order of R48: a verdict's arrival, a release. -/
def RampDue.key (d : RampDue) : Nat := match d.what with
  | .prompt => kRamp 4
  | .token _ _ _ => kRamp 5

/-- Is it the release of a token of h, in chunk `from'` or a later one? -/
def RampDue.frees (h : Handle) (from' : Nat) (d : RampDue) : Bool := match d.what with
  | .prompt => false
  | .token n _ _ => decide (d.h = h) && decide (from' ≤ n)

def State.pushDue (s : State) (d : RampDue) : State := { s with ramp := { s.ramp with due := s.ramp.due ++ [d] } }

/-- A stop drops the pass-through tokens of its chunks that wait for their release (R48, R50). -/
def State.dropDue (s : State) (i from' : Nat) : State :=
  let h := s.handleOf i
  let n := (s.ramp.due.filter fun d => d.frees h from').length
  if n = 0 then s
  else ({ s with ramp := { s.ramp with due := s.ramp.due.filter fun d => !d.frees h from' } } : State).updEntry i
    fun e => { e with held := e.held - n }

/-! ### Token Out queue (R49, R53, R60, R268) -/

/-- Insert a word after every word of its lane that does not come later (R268). -/
def insWord (w : OutWord) : List OutWord → List OutWord
  | [] => [w]
  | x :: r => if w.lane = x.lane ∧ (w.key.1 < x.key.1 ∨ (w.key.1 = x.key.1 ∧ w.key.2 < x.key.2)) then w :: x :: r
      else x :: insWord w r

def State.pushWords (s : State) (ws : List OutWord) : State :=
  { s with ramp := { s.ramp with outq := ws.foldl (fun q w => insWord w q) s.ramp.outq } }

/-- The fields of one word before its release's last word is marked. -/
structure Emit where
  tok    : Nat
  origin : Nat
  pos    : Nat
  entry  : Bool
deriving DecidableEq, Repr

/-- The words of a release and whether its last token was REPLACE (R49, R60). -/
def emits (redact : Nat) (repl : List Nat) : Bool → List Held → List Emit × Bool
  | prev, [] => ([], prev)
  | prev, h :: r =>
    match h.act with
    | .redact => let x := emits redact repl false r; (⟨redact, 1, h.pos, true⟩ :: x.1, x.2)
    | .replace =>
      let x := emits redact repl true r
      if prev then x
      else ((repl.mapIdx fun k w => ⟨w, 2, h.pos, decide (k + 1 = repl.length)⟩) ++ x.1, x.2)
    | .stop => emits redact repl prev r
    | _ => let x := emits redact repl false r; (⟨h.tok, 0, h.pos, true⟩ :: x.1, x.2)

/-- The 96-bit word of R53. -/
def outWord (h : Handle) (e : Emit) (a : Act) (esc miss last cend : Bool) (r : Stamp) : BitVec 96 :=
  pack 96 [(0, h.toNat), (32, e.tok % 2 ^ 18), (50, e.origin), (52, a.code), (55, nb esc), (56, nb miss), (57, nb last),
    (58, nb cend), (62, e.pos % 2 ^ 16), (78, r % 2 ^ 12)]

/-- Queue the words of a release stamped r; the last one carries CHUNK_END, and LAST at the end of the answer. -/
def State.emitRelease (s : State) (i : Nat) (es : List Emit) (a : Act) (esc miss final : Bool) (r : Stamp) : State :=
  let h := s.handleOf i
  s.pushWords (es.mapIdx fun k e =>
    let last := decide (k + 1 = es.length)
    ⟨i % 8, (r, i), r + 2, outWord h e a esc miss (last && final) last r, e.entry⟩)

/-- The end word (R53, R373): ACT, ESC and POS of an end word are free values (log entry 14). -/
def State.emitEnd (s : State) (i cause : Nat) (u t : Stamp) : State :=
  let h := s.handleOf i
  let w := pack 96 [(0, h.toNat), (50, 3), (52, (Config.endAct s.fresh).toNat), (55, nb (Config.endEsc s.fresh)), (57, 1),
    (59, cause), (62, (Config.endPos s.fresh).toNat), (78, u % 2 ^ 12)]
  ((s.pushWords [⟨i % 8, (t, i), t + 2, w, false⟩]).draw).updReq i fun r => { r with ended := true }

/-! ### The end of an answer (R50, R144, R373) -/

/-- A stopped request whose earlier chunks have all gone: the end word, and END unless the entry recovers (R50, R323). DEDUCED: so ends a
request, too, whose earlier chunks held STOP_TOK when a STOP or HOLD_FULL behind it came (R373 "any other end"; log entry 92). -/
def State.endIfDone (s : State) (i : Nat) (t : Stamp) : State :=
  let e := s.entry i
  match e.req.stop with
  | none => s
  | some st =>
    if !e.req.chunks.isEmpty || e.req.ended || s.ramp.due.any (RampDue.frees (s.handleOf i) 0) then s
    else
      let s := s.emitEnd i st.cause st.stamp t
      if e.state = .stopped then s.raiseEnd i st.cause st.stamp t else s

/-- The final word has left under a normal end: ANSWER becomes ENDED (R138, R373). -/
def State.finishAnswer (s : State) (i : Nat) (t : Stamp) : State :=
  let e := s.entry i
  if e.state = .answer ∧ e.req.ended ∧ e.req.stop = none then
    (s.updEntry i fun e => { e with state := .ended }).raiseEnd i 0 e.lastrel t
  else s

/-- The entry states in which the Ramp stops a request (R50, R138). -/
def Entry.stoppable (e : Entry) : Bool :=
  decide (e.state = .prompt) || decide (e.state = .answer) || decide (e.state = .migOut) || decide (e.state = .recover)

/-- Chunk `from'` and every later one are dropped (R50). -/
def State.dropFrom (s : State) (i from' : Nat) : State :=
  (((s.entry i).req.chunks.filter fun c => c.num ≥ from').foldl (fun s c => s.dropChunk i c) s).dropDue i from'

/-- The Ramp stops the request (R50) from chunk `from'` on. A request that is stopped already loses those of its earlier chunks that
are still held; the end keeps the cause and the stamp of the first stop (log entry 76). -/
def State.rampStop (s : State) (i from' cause : Nat) (u : Stamp) : State :=
  let e := s.entry i
  if e.req.ended then s
  else if e.req.stop.isSome then (s.dropFrom i from').endIfDone i u
  else if !e.stoppable then s
  else
    let s := s.dropFrom i from'
    let s := s.updEntry i fun e => { e with
      state := if e.state = .recover then .recover else .stopped
      req := { e.req with stop := some ⟨cause, u⟩, mig := none } }
    let s := s.count 11 0x1B 1
    let s := s.completeOpt (e.req.mig.map fun m => m.cmd) stSTOPPED []
    s.endIfDone i u

/-! ### Token-tier verdicts (R46, R50, R57) -/

/-- The chunk that token j of a transfer of chunk stamp x would join (R43, R50). -/
def State.joinChunk (s : State) (i : Nat) (x : Stamp) (j : Nat) : Nat :=
  let e := s.entry i
  let lim := max 1 (s.domOf e.dom).ramp.chunk
  match e.req.openChunk with
  | some c =>
    if c.takes x then
      if c.count + j < c.set.chunk then c.num else c.num + 1 + (c.count + j - c.set.chunk) / lim
    else e.aseq + j / lim
  | none => e.aseq + j / lim

/-- Does the domain's pass-through rule apply to a token of chunk stamp x? -/
def State.passes (s : State) (i : Nat) (x : Stamp) : Bool :=
  let e := s.entry i
  match e.req.openChunk with
  | some c => if c.takes x then c.set.passthru else (s.domOf e.dom).ramp.passthru
  | none => (s.domOf e.dom).ramp.passthru

/-- Is the held token at one of the positions [lo, hi)? -/
def Held.within (h : Held) (lo hi : Nat) : Bool := decide (lo ≤ h.pos) && decide (h.pos < hi)

/-- Raise the held tokens at the positions [lo, hi) (R46). -/
def raiseHeld (a : Act) (esc : Bool) (lo hi : Nat) (cs : List Chunk) : List Chunk :=
  let up := fun (h : Held) => if h.within lo hi then { h with act := Act.max h.act a, esc := h.esc || esc } else h
  cs.map fun c => { c with toks := c.toks.map up }

/-- Held tokens at the positions [lo, hi). -/
def heldWithin (lo hi : Nat) (cs : List Chunk) : Nat :=
  cs.foldl (fun a c => a + (c.toks.filter fun h => h.within lo hi).length) 0

/-- The earliest chunk with a held token at one of the positions [lo, hi). -/
def reachChunk (lo hi : Nat) (cs : List Chunk) : Option Nat :=
  (cs.find? fun c => c.toks.any fun h => h.within lo hi).map fun c => c.num

/-- One verdict of a transfer reaches the Ramp: token j of its path, at position pos + j, covers itself and the `span` positions
before it, of which the path itself brings those from pos on (R46). -/
def State.coverToken (s : State) (i : Nat) (x : Stamp) (pos : Nat) (path : List PathTok) (j : Nat) (u : Stamp) :
    State × List PathTok :=
  match path[j]? with
  | none => (s, path)
  | some p =>
    let e := s.entry i
    if s.passes i x then
      let s := if p.v.span > 0 then s.count 11 0x16 1 else s
      (if p.v.act = .stop then s.rampStop i (s.joinChunk i x j) 1 u else s, path)
    else
      let lo := pos + j - p.v.span
      let s := if heldWithin lo pos e.req.chunks < pos - lo then s.count 11 0x16 1 else s
      let s := s.updReq i fun r => { r with chunks := raiseHeld p.v.act p.v.esc lo pos r.chunks }
      let path := path.mapIdx fun k q =>
        if k < j ∧ j ≤ k + p.v.span then { q with v := { q.v with act := Act.max q.v.act p.v.act, esc := q.v.esc || p.v.esc } }
        else q
      let first : Nat := (reachChunk lo pos e.req.chunks).getD (s.joinChunk i x (j - p.v.span))
      (if p.v.act = .stop then s.rampStop i first 1 u else s, path)

/-- May the Ramp take the request's tokens into the Hold? -/
def State.rampTakes (s : State) (i : Nat) : Bool :=
  let e := s.entry i
  e.stoppable && e.req.stop.isNone && !e.req.ended

/-- Does a token-tier verdict still reach tokens of the request: it is not stopped, or earlier chunks of it are held (R46, R50)? -/
def State.verdictsReach (s : State) (i : Nat) : Bool :=
  let e := s.entry i
  s.rampTakes i || ((e.stoppable || decide (e.state = .stopped)) && e.req.stop.isSome && !e.req.ended && !e.req.chunks.isEmpty)

/-- T7: the verdicts of a transfer reach the Ramp in depth order (R46). A STOP is recorded (14 R331). -/
def State.tokenVerdicts (s : State) (i : Nat) (x : Stamp) (pos : Nat) (path : List PathTok) (u : Stamp) :
    State × List PathTok :=
  if !s.rampEn then (s, path)
  else
    (List.range path.length).foldl (fun (a : State × List PathTok) j =>
      if a.1.verdictsReach i then
        let e := a.1.entry i
        let s := match (path[j]? : Option PathTok) with
          | some p =>
            if p.v.act = Act.stop ∧ p.v.esc = false then
              let sp := min p.v.span (pos + j)
              a.1.logVerdict Act.stop false 0 e.dom (a.1.handleOf i) e.epoch (a.1.joinChunk i x j) (pos + j - sp) (sp + 1) u
            else a.1
          | none => a.1
        s.coverToken i x pos a.2 j u
      else a) (s, path)

/-! ### Closing (R44) -/

/-- Record the acceptance of a chunk's verdict and judge it once closed (R52). -/
def Chunk.judge (c : Chunk) (v : Stamp) : Chunk :=
  { c with verdict := some v, judged := c.closed.map fun x => max x v }

/-- A chunk closes for a cause other than stop or cancel: its view is asked for and its graph triggered; without a chunk
graph the verdict PASS arrives at once (R44, R57, R159; 04 R74). -/
def State.closeChunk (s : State) (i n : Nat) (t : Stamp) : State :=
  match s.chunk i n with
  | none => s
  | some c =>
    if c.closed.isSome then s
    else
      let e := s.entry i
      let h := s.handleOf i
      let s := (s.updChunk i n fun c => { c with closed := some t }).count 11 0x10 1
      let cg := (s.epochOf e).bind fun x => x.cgraph
      let s := match cg with
        | some g =>
          (s.askView h e.dom n c.all c.isEoa t).trigger
            ⟨h, g, true, n, none, 0, false, c.all.length, c.isEoa, wendWord c.wend, t⟩
        | none => if c.set.passthru || !s.rampEn then s else s.updChunk i n fun c => c.judge t
      if c.set.passthru then s.updReq i fun r => r.bury c .passthru else s

/-! ### Held tokens (R43, R57, R60, R61) -/

/-- A pass-through token becomes held; its release waits for its place in the stamp (R48, R57). -/
def State.passToken (s : State) (i n : Nat) (h : Held) (isEoa : Bool) (t : Stamp) : State :=
  let before := s.holdUse
  let s := (s.updEntry i fun e => { e with held := e.held + 1 }).updChunk i n fun c =>
    { c with count := c.count + 1, all := c.all ++ [h.tok], isEoa := c.isEoa || isEoa }
  (s.pushDue ⟨t, s.handleOf i, .token n h isEoa⟩).holdWatch before t

/-- The release of a pass-through token at t (R57, R373). -/
def State.passRelease (s : State) (i : Nat) (h : Held) (isEoa : Bool) (t : Stamp) : State :=
  let e := s.entry i
  let ep := s.epochOf e
  let x := emits ((ep.map fun p => p.redactTok).getD 0) ((ep.map fun p => p.repl).getD []) e.req.lastRepl [h]
  let final := isEoa && e.req.stop.isNone
  let before := s.holdUse
  let s := s.emitRelease i x.1 h.act h.esc false final t
  let s := s.updEntry i fun e => { e with
    held := e.held - 1, released := (e.released + 1) % 2 ^ 32, lastrel := t, req := { e.req with lastRepl := x.2 } }
  let s := s.holdWatch before t
  let s := if h.act = .flag then s.updDom e.dom fun d => { d with flags := d.flags + 1 } else s
  let s := if final then
      (if x.1.isEmpty then s.emitEnd i 0 t t else s.updReq i fun r => { r with ended := true }).finishAnswer i t
    else s
  s.endIfDone i t

/-- A new chunk opens with the domain's settings (R43, R63). -/
def State.openNew (s : State) (i : Nat) (x : Stamp) : State × Nat :=
  let e := s.entry i
  let c : Chunk := ⟨e.aseq, x, (s.domOf e.dom).ramp, [], 0, [], none, none, none, false, false, .pass, false⟩
  (s.updEntry i fun e => { e with aseq := (e.aseq + 1) % 2 ^ 32, req := { e.req with chunks := e.req.chunks ++ [c] } }, c.num)

/-- One token reaches T10 at t with chunk stamp x and position pos. DESIGN CHOICE: a STOP_TOK that the Hold does not take (its request has
stopped, HOLD_FULL, EN = 0) marks no end of answer (R39; log entry 86). DESIGN CHOICE: where EN rises between a token's T7 and T10, the
verdict that EN = 0 discarded at T7 still is the token's own action, but neither covers earlier tokens nor stops the request (R64; log
entry 93). -/
def State.holdToken (s : State) (i : Nat) (x : Stamp) (pos : Nat) (p : PathTok) (t : Stamp) : State :=
  if !s.rampEn then s.count 11 0x17 1
  else if !s.rampTakes i then s
  else
    let e := s.entry i
    let stopTok := ((s.epochOf e).map fun q => q.stopTok)
    let isEoa := decide (stopTok = some p.tok)
    if e.held ≥ 2048 ∨ s.holdUse ≥ 786432 then
      ((s.note 0x87 e.dom (s.handleOf i) t [BitVec.ofNat 64 e.held]).count 11 0x18 1).rampStop i (s.joinChunk i x 0) 4 t
    else
      -- an open chunk whose close window has passed closes at its close time first (R44)
      let s := match e.req.openChunk with
        | some c => if c.f + 240 * c.set.close ≤ x then s.closeChunk i c.num (c.f + 240 * c.set.close + 10) else s
        | none => s
      let q := match (s.entry i).req.openChunk with
        | some c => if c.takes x then (s, c.num) else s.openNew i x
        | none => s.openNew i x
      let s := q.1
      let n := q.2
      let s := s.updEntry i fun e => { e with eoa := e.eoa || isEoa }
      let pass := match s.chunk i n with
        | some c => c.set.passthru
        | none => false
      let h : Held := ⟨p.tok, pos, p.v.act, p.v.esc⟩
      let s :=
        if pass then s.passToken i n h isEoa t
        else
          let before := s.holdUse
          ((s.updEntry i fun e => { e with held := e.held + 1 }).updChunk i n fun c =>
            { c with toks := c.toks ++ [h], count := c.count + 1, all := c.all ++ [p.tok], isEoa := c.isEoa || isEoa }).holdWatch
              before t
      match s.chunk i n with
      | some c => if isEoa || decide (c.count ≥ c.set.chunk) then s.closeChunk i n t else s
      | none => s

/-! ### Graph verdicts (R45, R47, R50, R56) -/

/-- The fields of a verdict word; an ACTION code the manual does not use never reaches the Ramp (10 R231). -/
def vwAct (w : Word) : Act := (actOf (fld w 0 3)).getD .pass
def vwEsc (w : Word) : Bool := bitAt w 3

/-- Raise the covered tokens of a chunk (R45): cut at the chunk's last token. -/
def Chunk.coverBy (c : Chunk) (w : Word) : Chunk :=
  let n := fld w 12 9
  let off := fld w 4 8
  { c with
    esc := c.esc || vwEsc w
    toks := c.toks.mapIdx fun j h =>
      if n = 0 ∨ (off ≤ j ∧ j < off + n) then { h with act := Act.max h.act (vwAct w) } else h }

/-- First covered offset and number of covered tokens. -/
def Chunk.covered (c : Chunk) (w : Word) : Nat × Nat :=
  let k := c.toks.length
  if fld w 12 9 = 0 then (0, k) else (fld w 4 8, min (fld w 4 8 + fld w 12 9) k - fld w 4 8)

def State.lateVerdict (s : State) (i k : Nat) (w : Word) (u : Stamp) : State :=
  let e := s.entry i
  (s.note 0x86 e.dom (s.handleOf i) u
    [pack 64 [(0, k), (32, (vwAct w).code), (35, nb (vwEsc w))]]).count 11 0x14 1

/-- ESC of a chunk's verdict (R47), and the record of a STOP without it (14 R331). -/
def State.verdictEsc (s : State) (i k : Nat) (w : Word) (pos n : Nat) (u : Stamp) : State :=
  let e := s.entry i
  if vwEsc w then s.escalate i 1 (vwAct w) k pos n u
  else if vwAct w = .stop then s.logVerdict .stop false 1 e.dom (s.handleOf i) e.epoch k pos n u
  else s

/-- Is a verdict stamped u late for the chunk (R54, R57)? -/
def Chunk.late (c : Chunk) (u : Stamp) : Bool :=
  c.missed || (match c.wend with
    | some w => decide (w ≤ u)
    | none => true)

/-- The chunk's one graph verdict has been accepted (R45). -/
def State.takeVerdict (s : State) (i k : Nat) (u : Stamp) : State :=
  s.updReq i fun r => { r with
    chunks := r.chunks.map fun c => if c.num = k then { c with verdict := some u } else c
    past := match Tab.get r.past k with
      | some p => Tab.set r.past k { p with taken := true }
      | none => r.past }

/-- A late verdict of a chunk that is not dropped (R56). DESIGN CHOICE: its ESC raises ESCALATE and does not enter the merged ESC of
a FLAG-missed chunk that still waits for an earlier one, which R55 judged at its expiry (log entry 77). -/
def State.lateGraph (s : State) (i k : Nat) (w : Word) (pos n : Nat) (u : Stamp) : State :=
  let s := ((s.takeVerdict i k u).lateVerdict i k w u).verdictEsc i k w pos n u
  if vwAct w = .stop then s.rampStop i k 1 u else s

/-- A graph verdict of chunk k arrives at u (R45, R50, R54, R56, R57). A second one for its chunk is discarded and counted. -/
def State.graphVerdict (s : State) (i k : Nat) (w : Word) (u : Stamp) : State :=
  if !s.rampEn then s
  else
    match s.chunk i k with
    | some c =>
      let pos := ((c.toks[(c.covered w).1]?).map fun h => h.pos).getD 0
      let n := (c.covered w).2
      if c.verdict.isSome then s.count 11 0x15 1
      else if c.late u then s.lateGraph i k w pos n u
      else
        let s := s.updChunk i k fun c => (c.coverBy w).judge u
        let s := s.verdictEsc i k w pos n u
        if vwAct w = .stop ∧ n > 0 then s.rampStop i k 1 u else s
    | none =>
      match Tab.get (s.entry i).req.past k with
      | none => s
      | some p =>
        if p.taken then s.count 11 0x15 1
        else match p.fate with
        | .judged => s.count 11 0x15 1
        | .dropped =>
          let s := s.takeVerdict i k u
          let s := if u ≥ p.wend then s.lateVerdict i k w u else s
          if vwEsc w then s.escalate i 1 (vwAct w) k 0 0 u else s
        | _ => s.lateGraph i k w 0 0 u

/-! ### Misses (R54, R55) -/

/-- The expiry of one chunk's window; u is the window's end. -/
def State.missChunk (s : State) (i : Nat) (c : Chunk) (u : Stamp) : State :=
  let e := s.entry i
  let a : Act := if c.set.miss then .flag else .stop
  let s := (s.note 0x85 e.dom (s.handleOf i) u [pack 64 [(0, c.num), (32, a.code)]]).count 11 0x13 1
  let pos := (c.toks.head?.map fun h => h.pos).getD 0
  let s := if c.set.missEsc then s.escalate i 2 a c.num pos c.toks.length u
    else s.logVerdict a false 2 e.dom (s.handleOf i) e.epoch c.num pos c.toks.length u
  if c.set.miss then
    s.updChunk i c.num fun c => { c with judged := some u, missed := true, floor := .flag, esc := c.esc || c.set.missEsc }
  else s.rampStop i c.num 2 u

/-- Every chunk of the request whose window has ended by t and that is not judged misses, in order (R54). -/
def State.expire (s : State) (i : Nat) (t : Stamp) : State :=
  if !s.rampEn then s
  else (s.entry i).req.chunks.foldl (fun s c =>
    match s.chunk i c.num, c.wend with
    | some c, some w => if c.judged.isNone ∧ w ≤ t then s.missChunk i c w else s
    | _, _ => s) s

/-! ### Release (R49, R52, R373) -/

/-- The release tally of the first held chunk, if it is judged (R52). -/
def State.releaseAt (s : State) (i : Nat) : Option Stamp :=
  let e := s.entry i
  e.req.chunks.head?.bind fun c => c.judged.map fun j => max j e.lastrel

/-- Release the first held chunk at its release tally r. -/
def State.releaseChunk (s : State) (i : Nat) (c : Chunk) (r : Stamp) : State :=
  let e := s.entry i
  let ep := s.epochOf e
  let x := emits ((ep.map fun p => p.redactTok).getD 0) ((ep.map fun p => p.repl).getD []) e.req.lastRepl c.toks
  let before := s.holdUse
  let final := c.isEoa && e.req.stop.isNone
  let s := s.emitRelease i x.1 c.merged c.mergedEsc c.missed final r
  let s := s.updEntry i fun e => { e with
    held := e.held - c.toks.length
    released := (e.released + c.toks.length) % 2 ^ 32
    lastrel := r
    req := { e.req.bury c (if c.missed then .missFlag else .judged) with lastRepl := x.2 } }
  let s := s.updDom e.dom fun d => { d with flags := d.flags + (c.toks.filter fun h => h.act = .flag).length }
  let s := (s.count 11 0x11 1).holdWatch before r
  let s :=
    if final then
      (if x.1.isEmpty then s.emitEnd i 0 r r else s.updReq i fun q => { q with ended := true }).finishAnswer i r
    else s
  s.endIfDone i r

/-! ### Cancellation (R58) -/

/-- The Ramp's part of a CANCEL stamped c: every held chunk is dropped and the end word carries CAUSE CANCEL. -/
def State.rampCancel (s : State) (i : Nat) (c : Stamp) : State :=
  let e := s.entry i
  if e.req.stop.isSome ∨ e.req.ended then s
  else
    (e.req.chunks.foldl (fun s k => s.dropChunk i k) s).emitEnd i 3 c c

/-! ### Prompt verdicts (R15, R59, R84, R138) -/

/-- The end of the prompt window (R141). -/
def Entry.pend' (e : Entry) : Stamp := e.pstamp + 2400 * e.pdl

/-- Put a word on the Verdict Out queue in stamp and index order (12 R270). -/
def State.pushVerdict (s : State) (i : Nat) (a : Act) (esc miss : Bool) (u : Stamp) : State :=
  let h := s.handleOf i
  let w : BitVec 128 := pack 128 [(0, h.toNat), (32, a.code), (35, nb esc), (36, nb miss), (64, u)]
  { s with ramp := { s.ramp with voq := ins (u, w) s.ramp.voq } }
where
  ins (x : Stamp × BitVec 128) : List (Stamp × BitVec 128) → List (Stamp × BitVec 128)
    | [] => [x]
    | y :: r => if x.1 < y.1 ∨ (x.1 = y.1 ∧ fld x.2 0 16 < fld y.2 0 16) then x :: y :: r else y :: ins x r

/-- The prompt's outcome takes effect at u (R138): STOP ends the request, dropping what it holds; anything else opens the
answer. A request that the Ramp has stopped already has no further outcome; its verdict only reaches Verdict Out. -/
def State.promptOutcome (s : State) (i : Nat) (a : Act) (u : Stamp) : State :=
  let s := s.updReq i fun r => { r with pwin := false }
  let e := s.entry i
  if e.req.stop.isSome then s
  else if a = .stop then
    let s := s.dropFrom i 0
    let s := s.updEntry i fun e => { e with req := { e.req with stop := some ⟨6, u⟩, ended := true } }
    if e.state = .recover then s
    else (s.updEntry i fun e => { e with state := .stopped }).raiseEnd i 6 u u
  else if e.state = .recover then
    s.updReq i fun r => { r with recov := r.recov.map fun v => { v with prior := .answer } }
  else (s.updEntry i fun e => { e with state := .answer }).finishAnswer i u

/-- A prompt verdict arrives at u (R59, R84). -/
def State.promptVerdict (s : State) (i : Nat) (w : Word) (u : Stamp) : State :=
  if !s.rampEn then s
  else
    let e := s.entry i
    let esc := fun (s : State) =>
      if vwEsc w then s.escalate i 3 (vwAct w) 0xFFFFFFFF 0 0 u
      else if vwAct w = .stop then s.logVerdict .stop false 3 e.dom (s.handleOf i) e.epoch 0xFFFFFFFF 0 0 u
      else s
    if e.req.pwin ∧ u < e.pend' then
      let a := if e.req.oversize then .stop else vwAct w
      (esc (s.pushVerdict i a (vwEsc w) false u)).promptOutcome i a u
    else if u ≥ e.pend' ∧ e.pdl > 0 then
      let s := s.lateVerdict i 0xFFFFFFFF w u
      if vwEsc w then s.escalate i 3 (vwAct w) 0xFFFFFFFF 0 0 u else s
    else if e.state = .stopped ∨ e.state = .cancelled then
      if vwEsc w then s.escalate i 3 (vwAct w) 0xFFFFFFFF 0 0 u else s
    else s.count 11 0x15 1

/-- The prompt window closes without a verdict (R15, R54, R55, R59). -/
def State.promptMiss (s : State) (i : Nat) : State :=
  let e := s.entry i
  let u := e.pend'
  if !s.rampEn || !e.req.pwin then s
  else
    let m : Act := if e.req.pset.miss then .flag else .stop
    let a : Act := if e.req.oversize then .stop else m
    let s := (s.note 0x85 e.dom (s.handleOf i) u [pack 64 [(0, 0xFFFFFFFF), (32, m.code)]]).count 11 0x13 1
    let s := if e.req.pset.missEsc then s.escalate i 2 m 0xFFFFFFFF 0 0 u
      else s.logVerdict m false 2 e.dom (s.handleOf i) e.epoch 0xFFFFFFFF 0 0 u
    (s.pushVerdict i a e.req.pset.missEsc true u).promptOutcome i a u

/-- The prompt's window has closed by t without a verdict (R15, R59). -/
def State.promptDue (s : State) (i : Nat) (t : Stamp) : State :=
  let e := s.entry i
  if e.pdl > 0 ∧ e.pend' ≤ t then s.promptMiss i else s

/-- The close stamp of an open chunk whose close time decides (R44). -/
def Chunk.closeAt (c : Chunk) : Stamp := c.f + 240 * c.set.close + 10

/-- The open chunk of the request closes if its close time has come by t (R44). -/
def State.closeDue (s : State) (i : Nat) (t : Stamp) : State :=
  match (s.entry i).req.openChunk with
  | some c => if c.closeAt ≤ t then s.closeChunk i c.num c.closeAt else s
  | none => s

/-- A waiting event of the Ramp takes effect (R48): the PASS of a prompt, behind the expiry of its window, or a pass-through release. -/
def State.runDue (s : State) (d : RampDue) : State :=
  match s.live d.h with
  | none => s
  | some i => match d.what with
    | .prompt => (s.promptDue i d.at').promptVerdict i 0 d.at'
    | .token _ h last => s.passRelease i h last d.at'

end Sys2Proof.Machine
end

