-- ==== Sys2Proof/Machine/Recover.lean ====
section
/-! DEFINITION. Recover.lean: teardown of a request's context (08 R180-R183), job faults (08 R181, 09 R200), detector notices
(14 R314, R315, R327), and the start, failure and end of a recovery (14 R321-R324). -/

namespace Sys2Proof.Machine

/-! ### Semaphores and credits (R178, R180) -/

def Sem.free : Sem := ⟨none, [], false⟩
def Domain.sem (d : Domain) (n : Nat) : Sem := (Tab.get d.sems n).getD Sem.free

def State.updSem (s : State) (d n : Nat) (f : Sem → Sem) : State :=
  s.updDom d fun x => { x with sems := Tab.set x.sems n (f (x.sem n)) }

/-- A semaphore becomes free; its waiters are granted by SEM_GRANT (R178). -/
def State.releaseSem (s : State) (d n : Nat) (reclaim : Bool) : State :=
  s.updSem d n fun x => { x with holder := none, reclaimed := x.reclaimed || reclaim }

def State.returnCredits (s : State) (g n : Nat) (reclaim : Bool) : State :=
  let x := s.group g
  s.setGroup g { x with free := min 64 (x.free + n), marked := x.marked || reclaim }

/-! ### Teardown (R182, R183) -/

/-- Loads of a job that has left its slot return to nobody. -/
def State.dropLdms (s : State) (slot : Nat) : State :=
  let dead := fun (q : MReq) => match q.who with
    | .ldm sl _ _ => decide (sl = slot)
    | .snap _ => false
  let kill := fun (q : MReq) => if dead q then { q with who := .ldm 64 0 0 } else q
  { s with mem := { s.mem with ports := s.mem.ports.map fun p => (p.1, { p.2 with
      waitq := p.2.waitq.filter fun q => !dead q
      out := p.2.out.map fun o => (o.1, kill o.2)
      shown := p.2.shown.map fun o => (o.1, o.2.1, kill o.2.2) }) } }

/-- KV_END of the models moves back to KV_LEN (05 R108). -/
def State.endSpecs (s : State) (h : Handle) (ms : List Nat) : State :=
  match s.live h with
  | none => s
  | some i => s.updReq i fun r => { r with kv := r.kv.mapIdx fun m x => if ms.contains m then { x with fin := x.len } else x }

/-- A job leaves its slot: what it holds is reclaimed, its waiting acquires and calls are withdrawn, and its calls in progress
stay on their units with no one to take their results (R180, R182). -/
def State.removeJob (s : State) (slot : Nat) (j : Job) : State :=
  let s := j.sems.foldl (fun s n => s.releaseSem j.dom n true) (s.endSpecs j.handle j.specs)
  let s := j.creds.foldl (fun s c => s.returnCredits c.1 c.2 true) s
  let s := match j.wait with
    | .sem n _ _ => s.updSem j.dom n fun x => { x with waiters := x.waiters.filter fun w => w ≠ slot }
    | .cred p _ _ _ => s.setGroup p { s.group p with waiters := (s.group p).waiters.filter fun w => w ≠ slot }
    | .no => s
  let run := (j.calls.filter fun c => c.started.isSome).map fun c => (⟨slot, c, j.dom, j.elastic⟩ : Orphan)
  let s := { s with dsp := { s.dsp with orphans := s.dsp.orphans ++ run } }
  (s.dropLdms slot).setJob slot none

def GInst.trigger (g : GInst) (t : Stamp) : Trigger :=
  ⟨g.handle, g.graph, g.answer, g.k, none, 0, g.screen, g.ntok, g.final, g.wend, t⟩

/-- Order of restarting: the prompt graph, then answer chunks by number. -/
def trigKey (tr : Trigger) : Nat := if tr.answer then tr.k + 1 else 0
def insTrig (x : Trigger) : List Trigger → List Trigger
  | [] => [x]
  | y :: r => if trigKey x < trigKey y then x :: y :: r else y :: insTrig x r

/-- Tear down the context of the request with handle h: jobs, save frames, instances and waiting triggers (R182). Answers the
top graphs that were torn down. -/
def State.teardown (s : State) (h : Handle) (t : Stamp) : State × List Trigger :=
  let slots := s.pil.slots.filterMap fun p => p.2.job.bind fun j => if j.handle = h then some (p.1, j) else none
  let s := slots.foldl (fun s p => s.removeJob p.1 p.2) s
  let mine := s.dsp.insts.filter fun p => decide (p.2.handle = h)
  let ids := mine.map fun p => p.1
  let tops := mine.filter fun p => p.2.parent.isNone
  let waits := (s.dsp.startQ ++ s.dsp.outside).filter fun tr => decide (tr.handle = h)
  let torn := ((tops.map fun p => p.2.trigger t) ++ waits.filter fun tr => tr.parent.isNone).foldl
    (fun l x => insTrig x l) []
  let s := { s with dsp := { s.dsp with
    insts := s.dsp.insts.filter fun p => !decide (p.2.handle = h)
    frames := s.dsp.frames.filter fun p => !decide (p.2.job.handle = h)
    ready := s.dsp.ready.filter fun r => !ids.contains r.inst
    resolve := s.dsp.resolve.filter fun r => !ids.contains r.inst
    startQ := s.dsp.startQ.filter fun tr => !decide (tr.handle = h)
    outside := s.dsp.outside.filter fun tr => !decide (tr.handle = h) } }
  ((s.admitOutside.count 4 0x1D waits.length).count 4 0x12 tops.length, torn)

/-! ### Recovery (14 R321-R324) -/

/-- The open speculative step is closed as if by ACCEPT with NONE = 1, and its frame freed (R321). -/
def State.closeStep (s : State) (i : Nat) : State :=
  let e := s.entry i
  match e.req.step with
  | none => s
  | some st =>
    let s := { s with tok := { s.tok with frames := Tab.set s.tok.frames st.frame { s.tframe st.frame with inUse := false } } }
    s.updEntry i fun e => { e with spec := false, req := { e.req with step := none } }

/-- The entry leaves RECOVER for STOPPED (R323, R324). -/
def State.leaveStopped (s : State) (i : Nat) (u : Stamp) : State :=
  let s := s.updEntry i fun e => { e with state := .stopped, req := { e.req with recov := none } }
  let e := s.entry i
  match e.req.stop with
  | some st => if e.req.ended then s.raiseEnd i st.cause st.stamp u else s.endIfDone i u
  | none => s

/-- Recovery fails (R324): the request is stopped with CAUSE FAULT, unless it is stopped already. -/
def State.failRecovery (s : State) (i reason : Nat) (u : Stamp) : State :=
  let e := s.entry i
  match e.req.recov with
  | none => s
  | some r =>
    let h := s.handleOf i
    let s := (({ s with wch := { s.wch with recBad := (s.wch.recBad + 1) % 2 ^ 16 } } : State).count 14 0x14 1).note
      0xA5 e.dom h u [BitVec.ofNat 64 reason]
    let s := s.logRec 0x04 14 0 reason e.dom r.inj u (BitVec.ofNat 64 h.toNat) (BitVec.ofNat 64 r.first) 0
    let s := (s.dropTorn r.torn).rampStop i 0 5 u
    let s := s.completeOpt ((s.entry i).req.mig.map fun m => m.cmd) stSTOPPED []
    let s := s.updReq i fun q => { q with mig := none }
    let s := s.endBuild i stSTOPPED [BitVec.ofNat 64 h.toNat]
    let s := if e.req.ended ∧ e.req.stop = none then
        s.updReq i fun q => { q with stop := some ⟨5, u⟩ } else s
    s.leaveStopped i u

/-- A fault reaches the request's context (R138, R321, R323, R324). -/
def State.startRecovery (s : State) (i cause code : Nat) (torn : List Trigger) (f : Stamp) : State :=
  let e := s.entry i
  let h := s.handleOf i
  match e.req.recov with
  | some r =>
    if e.state = .recover then
      let s := s.updReq i fun q => { q with recov := some { r with
        faults := r.faults + 1, restored := none, lastRep := none, torn := torn.foldl (fun l x => insTrig x l) r.torn } }
      if r.faults + 1 ≥ 4 then s.failRecovery i 4 f else s
    else s.dropTorn torn
  | none =>
    if e.state = .prompt ∨ e.state = .answer ∨ e.state = .migOut ∨ e.state = .reuse then
      let s := (s.closeStep i).updEntry i fun x => { x with
        state := .recover
        req := { x.req with recov := some ⟨e.state, f, 1, none, 0, none, 0, cause, code, torn, s.wch.injNow⟩ } }
      let s := (s.note 0xA3 e.dom h f [pack 64 [(0, cause), (8, code)]]).count 14 0x12 1
      if s.wch.recEn then s else s.failRecovery i 1 f
    else s.dropTorn torn

/-- Does a fault in the request's context start or restart a recovery (07 R138, R323)? -/
def State.recovers (s : State) (i : Nat) : Bool :=
  match (s.entry i).state with
  | .prompt => true
  | .answer => true
  | .migOut => true
  | .reuse => true
  | .recover => true
  | _ => false

/-- Tear down and recover one request. -/
def State.faultRequest (s : State) (i cause code : Nat) (f : Stamp) : State :=
  let q := s.teardown (s.handleOf i) f
  q.1.startRecovery i cause code q.2 f

/-- Has the limit passed by u, half open (R324; 00 R3)? -/
def State.recoveryLate (s : State) (r : Recovery) (u : Stamp) : Bool := decide (r.first + 2400 * s.wch.reclim ≤ u)

/-- Recovery ends (R321, R323): the entry returns to its state, and the torn graphs start anew. An end at or behind the limit is a failure
of reason LIMIT (R324). -/
def State.endRecovery (s : State) (i : Nat) (u : Stamp) : State :=
  let e := s.entry i
  match e.req.recov with
  | none => s
  | some r =>
    if s.recoveryLate r u then s.failRecovery i 0 u else
    let h := s.handleOf i
    let dead := fun (tr : Trigger) =>
      tr.answer && ((match Tab.get e.req.past tr.k with
        | some p => decide (p.fate = .dropped)
        | none => false) || (match s.chunk i tr.k with
        | some c => c.closed.isNone
        | none => false))
    let live := r.torn.filter fun tr => !dead tr
    let s := s.dropTorn (r.torn.filter dead)
    let s := ({ s with wch := { s.wch with recOk := (s.wch.recOk + 1) % 2 ^ 16 } } : State).count 14 0x13 1
    let s := s.note 0xA4 e.dom h u
      [pack 64 [(0, e.committed), (32, r.replayed)], BitVec.ofNat 64 live.length]
    let s := s.logRec 0x03 14 0 r.cause e.dom r.inj u (BitVec.ofNat 64 h.toNat)
      (pack 64 [(0, e.committed), (32, r.replayed)]) (BitVec.ofNat 64 (u - r.first))
    let s := live.foldl (fun s tr => s.trigger { tr with stamp := u }) s
    if e.req.stop.isSome then s.leaveStopped i u
    else
      let s := s.updEntry i fun x => { x with state := r.prior, req := { x.req with recov := none } }
      s.finishAnswer i u

/-! ### Job faults (R181, R182, R200) -/

/-- The `job` special register (09 R188). -/
def State.jobWord (s : State) (slot : Nat) (j : Job) : Word :=
  match s.inst j.inst with
  | none => pack 64 [(0, slot), (6, j.task), (12, j.inst), (23, nb j.elastic)]
  | some g => pack 64 [(0, slot), (6, j.task), (12, j.inst), (23, nb j.elastic), (24, nb g.answer), (25, nb g.screen),
      (26, g.depth), (32, g.graph)]

/-- The job in a slot faults: JOB_FAULT notice and record, LASTF for a program fault, teardown, recovery. -/
def State.jobFault (s : State) (slot cause code : Nat) (f : Stamp) : State :=
  match s.job slot with
  | none => s
  | some j =>
    let jw := s.jobWord slot j
    let pcw := j.pc / 4 % 2 ^ 17
    let s := if cause ≥ 0x10 then
        ({ s with pil := { s.pil with lastf := pack 64 [(0, cause), (8, slot), (14, pcw), (32, j.dom)] } } : State).count 5 0x15 1
      else s
    let s := (s.note 0x8B j.dom j.handle f [pack 64 [(0, cause), (8, pcw)], jw]).count 4 0x1B 1
    let s := if cause = 7 then s.count 3 0x16 1 else if cause = 8 then s.count 3 0x17 1 else s
    let s := s.logRec 0x05 5 slot cause j.dom false f (BitVec.ofNat 64 j.handle.toNat) jw (BitVec.ofNat 64 pcw)
    match s.live j.handle with
    | some i => s.faultRequest i cause code f
    | none => (s.teardown j.handle f).1

/-! ### Detector notices (R314, R315, R327) -/

/-- What f does is the effect of an injected fault, or of a real one: records that it makes carry INJ accordingly (R320). -/
def State.asInjected (s : State) (inj : Bool) (f : State → State) : State :=
  let s' := f { s with wch := { s.wch with injNow := inj } }
  { s' with wch := { s'.wch with injNow := false } }

/-- DETECT: the notice, the record (of a unit, so its DOM is 0: R331), the last trip and the counter. `note` is false for a corrected
error without CE_NOTE. -/
def State.detect (s : State) (code inst action sub dom : Nat) (h : Handle) (inj note : Bool) (nreq : Nat) (f : Stamp) : State :=
  let s := ({ s with wch := { s.wch with
    lastd := pack 64 [(0, code), (8, inst), (16, action), (20, nb inj)] } } : State).count 14 0x10 1
  let s := if note then
      s.note 0xA0 dom h f [pack 64 [(0, code), (8, inst), (16, action), (20, nb inj)], BitVec.ofNat 64 nreq]
    else s
  if action = 0 ∧ s.log.ce = false then s
  else s.logRec 0x01 sub inst code 0 inj f (pack 64 [(0, action), (8, nreq)]) 0 0

/-- A failed check or MS_ERR at a memory port on behalf of request i: the detector trips with action REQUEST (R287, R314). -/
def State.memTrip (s : State) (port i : Nat) (f : Stamp) : State :=
  let e := s.entry i
  (s.detect 0x0E port 4 12 e.dom (s.handleOf i) false true (nb (s.recovers i)) f).faultRequest i 9 0x0E f

/-- A failed check of an access at a memory port that concerns no request: counted, and the detector trips (R287, R314). -/
def State.blockTrip (s : State) (port : Nat) (f : Stamp) : State := s.viol.detect 0x0E port 4 12 0 0 false true 0 f

end Sys2Proof.Machine
end

