-- ==== Sys2Proof/Machine/StateCache.lean ====
section
/-! DEFINITION. StateCache.lean: the lines of the state cache, which serve control pages and program areas (13 R296): look-ups, fills,
write-backs, and reads and stores through the cache. -/

namespace Sys2Proof.Machine

/-! ### Poison tags of node memory (12 R272) -/

def insNat (a : Nat) : List Nat → List Nat
  | [] => [a]
  | b :: r => if a < b then a :: b :: r else if a = b then b :: r else b :: insNat a r

/-- Set or clear the poison tag of a word of node memory. -/
def State.setPois (s : State) (a : Nat) (p : Bool) : State :=
  { s with mem := { s.mem with pois := if p then insNat a s.mem.pois else s.mem.pois.filter fun w => w ≠ a } }

/-! ### Lines -/

/-- Bytes of n lines' data, and lines' data from bytes. -/
def SLine.bytes (l : SLine) : List Byte := (List.range 64).map fun i => l.data.extractLsb' (8 * i) 8
def lineData (bs : List Byte) : BitVec 512 := BitVec.ofNat 512 (leNat bs)

/-- Entries in use. -/
def State.liveEntries (s : State) : List Nat := (s.man.entries.filter fun p => p.2.state ≠ .free).map fun p => p.1

/-- Does a run hold a line of a control page or program area? -/
def Run.holds (r : Run) (line : Nat) : Bool :=
  (decide (r.role = 0) || decide (r.role = 4)) && decide (r.page ≤ 64 * line) && decide (64 * line < r.page + 2 ^ r.run * 65536)

/-- The request whose control page or program area holds a line. -/
def State.lineOwner (s : State) (line : Nat) : Option Nat :=
  s.liveEntries.find? fun i => (s.runs (s.entry i).plist (s.entry i).npage).any fun r => r.holds line

/-- A line filled from node memory for an owner and generation. -/
def State.fill (s : State) (line owner gen : Nat) : SLine :=
  ⟨false, owner, gen, lineData (s.rd (64 * line) 64), (List.range 8).foldl (fun m k =>
    if s.mem.pois.contains (64 * line + 8 * k) then m ||| (1#8 <<< k) else m) 0#8⟩

/-- May a line be written back: its page is still that of its owner and generation (R292), and the regions let the owner write there
(R287)? -/
def State.lineOk (s : State) (line : Nat) (l : SLine) : Bool :=
  s.pageOk (64 * line / 65536 * 65536) l.owner l.gen && s.ownedWr l.owner (64 * line) 64

/-- A dirty line is written back, data and poison tags (R296). One that may not be is discarded, and counted where the regions refuse it. -/
def State.writeBack (s : State) (line : Nat) (l : SLine) : State :=
  if !l.dirty then s
  else if !s.lineOk line l then (if s.ownedWr l.owner (64 * line) 64 then s else s.viol)
  else
    let s := (s.wr (64 * line) l.bytes).count 12 0x16 1
    (List.range 8).foldl (fun s k => s.setPois (64 * line + 8 * k) (bitAt l.pois k)) s

/-- Is the line of an owner and generation in the cache? One of another owner or generation misses (R296). -/
def State.scHit (s : State) (line owner gen : Nat) : Bool :=
  match Tab.get s.mem.scLines line with
  | some l => decide (l.owner = owner) && decide (l.gen = gen)
  | none => false

/-- The line that a miss displaces: the one of its own address, else, of a full cache, one whose choice the manual leaves open (log
entry 79). -/
def State.scVictim (s : State) (line owner gen : Nat) : Option (Nat × SLine) :=
  if s.scHit line owner gen then none
  else match Tab.get s.mem.scLines line with
    | some l => some (line, l)
    | none => if s.mem.scLines.length ≥ 16384 then s.mem.scLines.head? else none

/-- A line leaves the cache: a dirty one is written back. -/
def State.scEvict (s : State) (v : Nat × SLine) : State :=
  let s := s.writeBack v.1 v.2
  { s with mem := { s.mem with scLines := Tab.del s.mem.scLines v.1 } }

/-- A look-up for an owner and generation: a miss counts, displaces a line and fills one. -/
def State.scAccess (s : State) (a owner gen : Nat) : State :=
  let line := a / 64
  if s.scHit line owner gen then s
  else
    let s := match s.scVictim line owner gen with
      | some v => s.scEvict v
      | none => s
    ({ s with mem := { s.mem with scLines := Tab.set s.mem.scLines line (s.fill line owner gen) } } : State).count 12 0x15 1

/-- The 64-bit word at an aligned address as the cache shows it, with its poison tag. -/
def State.cacheWord (s : State) (a : Nat) : Word × Bool :=
  match Tab.get s.mem.scLines (a / 64) with
  | some l => (l.data.extractLsb' (8 * (a % 64)) 64, bitAt l.pois (a % 64 / 8))
  | none => (s.rd64 a, s.poisoned a 8)

/-- A store of a word and its tag into its line, which is dirty from then on. -/
def State.cachePut (s : State) (a : Nat) (w : Word) (p : Bool) : State :=
  match Tab.get s.mem.scLines (a / 64) with
  | none => s
  | some l =>
    let k := a % 64 / 8
    let bs := l.bytes.take (a % 64) ++ leBytes 8 w.toNat ++ l.bytes.drop (a % 64 + 8)
    let m := l.pois &&& ~~~(1#8 <<< k)
    let x := { l with dirty := true, data := lineData bs, pois := if p then m ||| (1#8 <<< k) else m }
    { s with mem := { s.mem with scLines := Tab.set s.mem.scLines (a / 64) x } }

/-! ### Ranges -/

/-- Look up every line of n bytes at a. -/
def State.scRange (s : State) (a n owner gen : Nat) : State :=
  (List.range ((a + n + 63) / 64 - a / 64)).foldl (fun s k => s.scAccess (a / 64 * 64 + 64 * k) owner gen) s

/-- n bytes at a, read through the cache for an owner and generation: the state after the look-ups, and the bytes. -/
def State.scRead (s : State) (a n owner gen : Nat) : State × List Byte :=
  let s := s.scRange a n owner gen
  let ls := (List.range ((a + n + 63) / 64 - a / 64)).flatMap fun k =>
    match Tab.get s.mem.scLines (a / 64 + k) with
    | some l => l.bytes
    | none => s.rd (a / 64 * 64 + 64 * k) 64
  (s, (ls.drop (a % 64)).take n)

/-- Bytes of a line that a store of `bs` at a changes. -/
def SLine.overlay (l : SLine) (line a : Nat) (bs : List Byte) : SLine :=
  let o := 64 * line - a
  let skip := a - 64 * line
  let mine := (bs.drop o).take (64 - skip)
  { l with dirty := true, data := lineData (l.bytes.take skip ++ mine ++ l.bytes.drop (skip + mine.length)) }

/-- The bytes of a store that a line takes. -/
def State.scPut (s : State) (line a : Nat) (bs : List Byte) : State :=
  match Tab.get s.mem.scLines line with
  | some l => { s with mem := { s.mem with scLines := Tab.set s.mem.scLines line (l.overlay line a bs) } }
  | none => s

/-- Bytes stored at a through the cache for an owner and generation, line by line: their lines are dirty from then on. -/
def State.scStore (s : State) (a : Nat) (bs : List Byte) (owner gen : Nat) : State :=
  (List.range ((a + bs.length + 63) / 64 - a / 64)).foldl (fun s k =>
    (s.scAccess (64 * (a / 64 + k)) owner gen).scPut (a / 64 + k) a bs) s

/-- The dirty lines of a request that may not be written back. -/
def State.scBad (s : State) (i : Nat) : List (Nat × SLine) :=
  let rs := s.runs (s.entry i).plist (s.entry i).npage
  s.mem.scLines.filter fun p => p.2.dirty && (rs.any fun r => r.holds p.1) && !s.lineOk p.1 p.2

/-- The dirty lines of a request are written back (R296). -/
def State.scClean (s : State) (i : Nat) : State :=
  let rs := s.runs (s.entry i).plist (s.entry i).npage
  let mine := fun (n : Nat) => rs.any fun r => r.holds n
  let s := s.mem.scLines.foldl (fun s p => if mine p.1 then s.writeBack p.1 p.2 else s) s
  { s with mem := { s.mem with scLines := s.mem.scLines.map fun p => (p.1, { p.2 with dirty := p.2.dirty && !mine p.1 }) } }

end Sys2Proof.Machine
end

