-- ==== Sys2Proof/Machine/Path.lean ====
section
/-! DEFINITION. Path.lean: the token path (02): the transition store, verdict and descriptor of a transfer, the stages T7, T10
and T11 of the transfers in flight, and `State.upTo`, which applies the stages due before an event and moves the tally. -/

namespace Sys2Proof.Machine

/-! ### The transition store (R24-R26) -/

def hdrDefault (w : Word) : Nat := fld w 0 20
def hdrTbase (w : Word) : Nat := fld w 20 21
def hdrK (w : Word) : Nat := fld w 41 5
def hdrSeed (w : Word) : Nat := fld w 46 6
def hdrAct (w : Word) : Act := (actOf (fld w 52 3)).getD .pass

def State.hdr (s : State) (st : Nat) : Word := Tab.getD s.tok.hdrs st 0
def State.pool (s : State) (i : Nat) : Word := Tab.getD s.tok.pool i 0

/-- Index of the transition word within its block (R25). -/
def hashSlot (k seed x : Nat) : Nat :=
  if k = 0 then 0 else (x * (0x9e3779b1 + 2 * seed) % 2 ^ 32) >>> (32 - k)

/-- The next state (R25). -/
def State.nextState (s : State) (st x : Nat) : Nat :=
  let h := s.hdr st
  if hdrK h = 31 then hdrDefault h
  else
    let w := s.pool (hdrTbase h + hashSlot (hdrK h) (hdrSeed h) x)
    if bitAt w 18 ∧ fld w 0 18 = x then fld w 19 20 else hdrDefault h

/-- The extension word of a state (R26): without one, no mask and no items. -/
def State.ext (s : State) (st : Nat) : Word :=
  let h := s.hdr st
  if bitAt h 62 then s.pool (hdrTbase h + if hdrK h = 31 then 0 else 2 ^ hdrK h) else 0xFFFF

/-- The token items of an extension word: kind and token. -/
def extItems (w : Word) : List (Nat × Nat) := [(fld w 35 2, fld w 16 18), (fld w 56 2, fld w 37 18)]

/-- The enabled slots of an epoch with their states, in slot order. -/
def slotStates (en : BitVec 4) (f : Four) : List (Nat × Nat) :=
  [(0, f.a0), (1, f.a1), (2, f.a2), (3, f.a3)].filter fun p => bitAt en p.1

/-- Advance the enabled slots (T3-T5). -/
def State.advance (s : State) (en : BitVec 4) (f : Four) (x : Nat) : Four :=
  let g := fun (i st : Nat) => if bitAt en i then s.nextState st x else st
  ⟨g 0 f.a0, g 1 f.a1, g 2 f.a2, g 3 f.a3⟩

/-! ### Verdict, exceptions, forced token (R28-R31) -/

/-- The merged verdict of the new states (R28). -/
def State.verdictOf (s : State) (en : BitVec 4) (f : Four) : TokVerdict :=
  let hs := (slotStates en f).map fun p => s.hdr p.2
  let a := hs.foldl (fun a h => Act.max a (hdrAct h)) .pass
  ⟨a, hs.any fun h => bitAt h 55, (hs.filter fun h => hdrAct h = a).foldl (fun m h => max m (fld h 57 5)) 0⟩

/-- TOKEN_NOTE words of the new states (R28, 11 R261). -/
def State.tokenNotes (s : State) (en : BitVec 4) (f : Four) (lane pos : Nat) : List (Nat × List Word) :=
  ((slotStates en f).filter fun p => bitAt (s.hdr p.2) 56).map fun p =>
    (0x82, [pack 64 [(0, p.2), (20, p.1), (22, lane)], BitVec.ofNat 64 (pos % 2 ^ 32)])

/-! ### The words that a transfer reads or writes (R22, 14 R314) -/

/-- The place of a header word of the transition store, as DETECTOR_TRIP numbers it: pool words come first. -/
def hdrPlace (st : Nat) : Nat := 2097152 + st
/-- The place of a frame entry, as DETECTOR_TRIP numbers it: the token state table comes first. -/
def nodePlace (frame node : Nat) : Nat := 65536 + 64 * frame + node

/-- Pool index of a state's transition word for token x (R25). -/
def State.transAt (s : State) (st x : Nat) : Nat :=
  let h := s.hdr st
  hdrTbase h + hashSlot (hdrK h) (hdrSeed h) x

/-- Pool index of a state's extension word (R26). -/
def State.extAt (s : State) (st : Nat) : Nat :=
  let h := s.hdr st
  hdrTbase h + if hdrK h = 31 then 0 else 2 ^ hdrK h

/-- The reads of T3-T6 for one slot that goes from `st` to `nx` on token x. -/
def State.slotTouch (s : State) (st nx x : Nat) : List (Nat × Nat × Nat) :=
  [(2, hdrPlace st, 3)] ++ (if hdrK (s.hdr st) = 31 then [] else [(2, s.transAt st x, 4)]) ++ [(2, hdrPlace nx, 5)] ++
    (if bitAt (s.hdr nx) 62 then [(2, s.extAt nx, 6)] else [])

/-- The reads of T3-T6 for every enabled slot. -/
def State.advTouch (s : State) (en : BitVec 4) (f g : Four) (x : Nat) : List (Nat × Nat × Nat) :=
  ((slotStates en f).zip (slotStates en g)).flatMap fun p => s.slotTouch p.1.2 p.2.2 x

/-- The reads of a PRIME: header and extension word of the current states (R372). -/
def State.primeTouch (s : State) (en : BitVec 4) (f : Four) : List (Nat × Nat × Nat) :=
  (slotStates en f).flatMap fun p => (2, hdrPlace p.2, 3) :: (if bitAt (s.hdr p.2) 62 then [(2, s.extAt p.2, 6)] else [])

structure Desc where
  maskId : Nat
  gen    : Nat
  exc    : List (Bool × Nat)     -- ALLOW?, token
  force  : Option Nat
  dead   : Bool
deriving DecidableEq, Repr

/-- MASK_ID, the exception list and the forced-token decision (R29, R31), or the unconstrained one (R41 MASK_EN). -/
def State.descOf (s : State) (ep : Epoch) (f : Four) : Desc :=
  if !s.maskEn then ⟨0xFFFF, 0, [], none, false⟩
  else
    let mid := if bitAt ep.slotEn 0 then fld (s.ext f.a0) 0 16 else 0xFFFF
    let items := (slotStates ep.slotEn f).flatMap fun p => extItems (s.ext p.2)
    let exc := ((items.filter fun x => x.1 = 1 ∨ x.1 = 2).map fun x => (decide (x.1 = 2), x.2)).take 8
    let deny := (exc.filter fun x => !x.1).map fun x => x.2
    let allow := (exc.filter fun x => x.1).map fun x => x.2
    let cands := ((items.filter fun x => x.1 = 3).map fun x => x.2).eraseDups
    let m := s.mask mid
    let gen := if mid = 0xFFFF then 0 else m.gen
    let dead : Desc := ⟨mid, gen, exc, some ep.stopTok, true⟩
    match cands with
    | [] =>
      if mid ≠ 0xFFFF ∧ m.popx ≤ 8 ∧ (m.members.all fun x => deny.contains x) ∧
          (allow.all fun x => decide (x = ep.stopTok) || deny.contains x) then dead
      else ⟨mid, gen, exc, none, false⟩
    | [c] => if deny.contains c then dead else ⟨mid, gen, exc, some c, false⟩
    | _ => dead

/-- The 256-bit descriptor of R32. -/
def descWord (h : Handle) (node : Nat) (spec banned : Bool) (d : Desc) (t : Stamp) : BitVec 256 :=
  pack 256 ([(0, h.toNat), (32, node), (38, nb spec), (39, nb (decide (1024 ≤ d.maskId ∧ d.maskId ≤ 65534))),
    (40, d.maskId), (56, d.gen), (64, d.force.getD 0), (82, nb d.force.isSome), (83, nb d.dead), (84, nb banned),
    (88, d.exc.length), (92, t % 2 ^ 12)] ++ d.exc.mapIdx fun k x => (104 + 19 * k, x.2 + nb x.1 * 2 ^ 18))

/-- The descriptor of a failed lookup (R23). -/
def staleWord (h : Handle) (node : Nat) (spec : Bool) (t : Stamp) : BitVec 256 :=
  pack 256 [(0, h.toNat), (32, node), (38, nb spec), (40, 0xFFFF), (87, 1), (92, t % 2 ^ 12)]

/-- The descriptor of a BADTREE node (R35). -/
def badTreeWord (h : Handle) (node stopTok : Nat) (t : Stamp) : BitVec 256 :=
  pack 256 [(0, h.toNat), (32, node), (38, 1), (40, 0xFFFF), (64, stopTok), (82, 1), (84, 1), (86, 1), (92, t % 2 ^ 12)]

/-- Mark a descriptor FAULT (R40): STOP_TOK is forced, whatever the descriptor forced before. DESIGN CHOICE: DEADEND is cleared, since
the force is then the fault's (log entry 75). -/
def faultWord (stopTok : Nat) (w : BitVec 256) : BitVec 256 :=
  let keep := w.toNat - ((fld w 64 20) <<< 64 + (fld w 85 1) <<< 85)
  BitVec.ofNat 256 (keep + stopTok <<< 64 + 1 <<< 82 + 1 <<< 85)

/-! ### Transfers marked FAULT (R40) -/

/-- The STOP_TOK that a faulted transfer forces: that of the epoch its handle's entry is bound to. DESIGN CHOICE: for a handle that
matches no live entry the manual names no epoch; the entry at its index decides, and 0 stands where it names none (log entry 75). -/
def State.stopTokOf (s : State) (h : Handle) : Nat := ((s.epochOf (s.entry (hIdx h))).map fun e => e.stopTok).getD 0

/-- Mark a transfer: its descriptor carries FAULT and STOP_TOK, it raises no notice. -/
def State.marked (s : State) (f : Flight) : Flight :=
  { f with fault := true, notes := [], desc := f.desc.map fun w => faultWord (s.stopTokOf f.handle) w }

/-- A chunk without its held tokens at the positions [lo, hi); it is open again if they closed it. -/
def Chunk.without (c : Chunk) (lo hi : Nat) : Chunk :=
  let ts := c.toks.filter fun h => !h.within lo hi
  let k := c.toks.length - ts.length
  if k = 0 then c
  else
    { c with
      toks := ts, count := c.count - k, all := c.all.take (c.all.length - k), closed := none, verdict := none
      judged := if c.missed then c.judged else none, isEoa := false }

/-- Undo the T10 of a transfer whose token must not be enqueued (R40). What was released since stays released. -/
def State.unhold (s : State) (i : Nat) (f : Flight) (b : Undo) : State :=
  let u := f.stamp + 10
  let h := s.handleOf i
  let n := f.path.length
  let e := s.entry i
  let s := { s with
    dsp := { s.dsp with startQ := s.dsp.startQ.filter fun t =>
      !(decide (t.handle = h) && t.answer && !t.screen && t.parent.isNone && decide (t.stamp = u)) }
    txt := { s.txt with views := s.txt.views.filter fun v => !(decide (v.handle = h) && decide (v.asked = u)) } }
  if b.pass then
    ({ s with ramp := { s.ramp with outq := s.ramp.outq.filter fun w => !decide (w.key = (u, i)) } } : State).updEntry i
      fun e => { e with
        committed := e.committed - n, eoa := b.eoa, aseq := b.aseq, released := b.released, lastrel := b.lastrel
        req := { e.req with chunks := b.chunks, past := b.past, lastRepl := b.lastRepl, ended := b.ended } }
  else
    let lo := e.committed - n
    let cs := (e.req.chunks.map fun c => c.without lo e.committed).filter fun c => decide (0 < c.count)
    s.updEntry i fun e => { e with
      committed := lo, eoa := b.eoa, aseq := e.aseq - (e.req.chunks.length - cs.length)
      held := e.held - heldWithin lo e.committed e.req.chunks
      req := { e.req with chunks := cs } }

/-- The node of a transfer leaves the speculative area, or enters it at its T10 (R22, R60). -/
def State.setSpec (s : State) (f : Flight) (held : Bool) : State :=
  match f.own with
  | none => s
  | some p =>
    let x := s.tframe p.1
    match Tab.get x.nodes p.2 with
    | none => s
    | some n =>
      let x' := { x with nodes := Tab.set x.nodes p.2 { n with held := held } }
      { s with tok := { s.tok with frames := Tab.set s.tok.frames p.1 x' } }

/-- A marked transfer enqueues nothing, even where its T10 has come (R40). -/
def State.unqueue (s : State) (f : Flight) : State :=
  match f.undo, s.live f.handle with
  | some b, some i => (if f.path.isEmpty then s else s.unhold i f b).setSpec f false
  | _, _ => s

/-- A marked node writes no frame entry (R40): that place of its frame reads as absent. -/
def State.unwrite (s : State) (f : Flight) : State :=
  match f.own with
  | none => s
  | some p =>
    let x := s.tframe p.1
    let mine := fun (n : Nat × TNode) => decide (n.1 = p.2) && decide (n.2.stamp = f.stamp)
    { s with tok := { s.tok with frames := Tab.set s.tok.frames p.1 { x with nodes := x.nodes.filter fun n => !mine n } } }

/-- Mark the transfers that p names. They write no state and enqueue nothing. Answers the entries of their requests. -/
def State.markFaults (s : State) (p : Flight → Bool) : State × List Nat :=
  let hit := s.tok.path.filter fun f => p f && !f.fault
  let is := ((hit.filter fun f => f.passed).filterMap fun f => s.live f.handle).eraseDups
  let back := hit.foldr (fun f (t : Tab Four) =>
    match f.prior, s.live f.handle with
    | some x, some i => Tab.set t i x
    | _, _ => t) s.tok.states
  let path := s.tok.path.map fun f => if p f && !f.fault then s.marked f else f
  let s := hit.foldl (fun s f => (s.unqueue f).unwrite f) s
  (({ s with tok := { s.tok with path := path, states := back } } : State).count 6 0x17 hit.length, is)

/-- The requests of entries recover; `cause` DETECTOR. -/
def State.recoverAll (s : State) (is : List Nat) (code : Nat) (f : Stamp) : State :=
  is.foldl (fun s i => s.faultRequest i 9 code f) s

/-- Does the transfer read or write the word at a place of detector `code` at or after f? -/
def Flight.touches (x : Flight) (code place : Nat) (f : Stamp) : Bool :=
  x.touch.any fun y => decide (y.1 = code) && decide (y.2.1 = place) && decide (f ≤ x.stamp + y.2.2)

/-- The detector code of a word under repair that the transfer reads before the repair is complete (14 R315). -/
def State.readsBad (s : State) (x : Flight) : Option Nat :=
  (s.wch.repairs.find? fun r => x.touch.any fun y =>
    decide (y.1 = r.1) && decide (y.2.1 = r.2.1) && decide (x.stamp + y.2.2 < r.2.2)).map fun r => r.1

/-- A captured transfer enters the path, with the domain of its entry at T1 (11 R261). One that reads a word under repair is marked and its request recovers (14 R315); DESIGN
CHOICE: at its stamp, not at the stamp of the read (log entry 32). -/
def State.push (s : State) (f : Flight) : State :=
  let f := { f with dom := (s.entry (hIdx f.handle)).dom }
  let s' := { s with tok := { s.tok with path := s.tok.path ++ [f] } }
  match s.readsBad f with
  | none => s'
  | some code =>
    let q := s'.markFaults fun x => decide (x.lane = f.lane) && decide (x.stamp = f.stamp)
    q.1.recoverAll q.2 code f.stamp

/-! ### The token log (13 R295) -/

/-- Write bytes to an area of a request's own pages, for the role PVIEW or TLOG; a failed check trips the port's detector. While no request is
issued the write waits, and is checked when it is issued (R287, R288, R309). -/
def State.areaWrite (s : State) (i role o : Nat) (bs : List Byte) (u : Stamp) : State :=
  if !s.mem.en then { s with mem := { s.mem with delayed := s.mem.delayed ++ [.area (s.handleOf i) role o bs] } }
  else
    let e := s.entry i
    let q := s.wrArea e.dom (areaPages (s.runs e.plist e.npage) role 0) o bs
    if q.2 then q.1 else q.1.memTrip 0 i u

/-- Write TOKEN at a committed position; beyond the area LOGFULL is set. -/
def State.tlogWrite (s : State) (i pos tok : Nat) (u : Stamp) : State :=
  let e := s.entry i
  if 4 * pos + 4 > areaSize (areaPages (s.runs e.plist e.npage) 2 0) then s.updReq i fun r => { r with logfull := true }
  else s.areaWrite i 2 (4 * pos) (leBytes 4 tok) u

/-- The token logged at a position; none where it was not logged. -/
def State.tlogRead (s : State) (i pos : Nat) : Option Nat :=
  let e := s.entry i
  let bs := s.rdArea (areaPages (s.runs e.plist e.npage) 2 0) (4 * pos) 4
  if bs.all fun b => b.isSome then some (leNat (bs.filterMap id) % 2 ^ 18) else none

/-! ### Migration (R147-R149) -/

/-- A migration is abandoned: the entry returns to ANSWER and MIGRATE_OUT completes (R149). -/
def State.migAbandon (s : State) (i status : Nat) : State :=
  let e := s.entry i
  let s := s.updEntry i fun e => { e with
    state := if e.state = .migOut then .answer else e.state
    migH := 0
    req := { e.req with
      mig := none
      recov := e.req.recov.map fun r => if r.prior = .migOut then { r with prior := .answer } else r } }
  s.completeOpt (e.req.mig.map fun m => m.cmd) status []

/-- After T10: end of answer has reached the Hold while COMMITTED is below MIG_H (R149). -/
def State.eoaAbandon (s : State) (i : Nat) (eoaBefore : Bool) : State :=
  let e := s.entry i
  if !eoaBefore ∧ e.eoa ∧ e.req.mig.isSome ∧ e.committed < e.migH then (s.migAbandon i stEOA).finishAnswer i s.tally
  else s

/-! ### Positions -/

/-- Tokens of the request in flight that will be committed. -/
def State.inFlight (s : State) (h : Handle) : Nat :=
  (s.tok.path.filter fun f => decide (f.handle = h) && f.passed && !f.fault && !f.replay && decide (f.stage ≤ 10)).foldl
    (fun a f => a + f.path.length) 0

/-- The position that the next committed token of the request takes (11 R261). -/
def State.nextPos (s : State) (i : Nat) : Nat := (s.entry i).committed + s.inFlight (s.handleOf i)

/-! ### Stages -/

/-- A verdict joins the merge of a re-screen; the first STOP decides its outcome (07 R144, R152). -/
def Build.merge (b : Build) (a : Act) (esc : Bool) (u : Stamp) : Build :=
  { b with
    act := Act.max b.act a, esc := b.esc || esc
    stopAt := if a = .stop ∧ b.stopAt.isNone then some u else b.stopAt }

/-- T7 (R28, R46): the verdicts reach the Ramp; a re-screen's verdict goes to the re-screen merge (07 R152); a recovery's
replay changes nothing at the Ramp (14 R321). -/
def State.stage7 (s : State) (f : Flight) (u : Stamp) : State × Flight :=
  let f' := { f with stage := 10 }
  if f.fault || !f.passed then (s, f')
  else match s.live f.handle with
    | none => (s, f')
    | some i =>
      if f.replay then
        if f.screen then
          (s.updReq i fun r => { r with
            build := r.build.map fun b => f.path.foldl (fun b (p : PathTok) => b.merge p.v.act p.v.esc u) b }, f')
        else (s, f')
      else
        let q := s.tokenVerdicts i f.stamp f.pos f.path u
        (q.1, { f' with path := q.2 })

/-- The re-screen's chunks form by count alone (07 R152): a chunk opens with its first token, under the CHUNK of that stamp (03 R63), and the
chunk graph of a full or last one is triggered. -/
def State.screenToken (s : State) (i : Nat) (f : Flight) (u : Stamp) : State :=
  let e := s.entry i
  match e.req.build with
  | none => s
  | some b =>
    let lim := if b.toks.isEmpty then max 1 (s.domOf e.dom).ramp.chunk else b.lim
    let toks := b.toks ++ f.path.map fun p => p.tok
    let last := decide (f.pos + 1 = e.committed)
    let put := fun (s : State) (toks : List Nat) (num : Nat) => s.updReq i fun r => { r with
      build := some { b with lim := lim, toks := toks, num := num } }
    if toks.length < lim && !last then put s toks b.num
    else
      let s := put s [] (b.num + 1)
      match (s.epochOf e).bind fun x => x.cgraph with
      | some g =>
        let h := s.handleOf i
        (s.askView h e.dom b.num toks (e.eoa && last) u).trigger
          ⟨h, g, true, b.num, none, 0, true, toks.length, e.eoa && last, BitVec.allOnes 64, u⟩
      | none => s

/-- T10 of a replay transfer (14 R321, 07 R152). -/
def State.replay10 (s : State) (i : Nat) (f : Flight) (u : Stamp) : State :=
  if f.screen then s.screenToken i f u
  else
    match (s.entry i).req.recov with
    | none => s
    | some v =>
      -- a replay transfer that a second fault left in the path belongs to no restored recovery (R323)
      if v.restored.isNone || decide (f.stamp < v.restored.getD 0) then s
      else
        let s := s.updReq i fun r => { r with recov := some { v with replayed := v.replayed + 1 } }
        if f.pos + 1 ≥ (s.entry i).committed then s.endRecovery i u else s

/-- The step that was open ends: KV_END moves back to KV_LEN for the SPEC calls of every job of the request, one in a save frame included
(05 R108; 08 R179). -/
def State.stepSpecs (s : State) (h : Handle) : State :=
  let s := s.pil.slots.foldl (fun s p => match p.2.job with
    | some j => if j.handle = h then (s.endSpecs h j.specs).setJob p.1 (some { j with specs := [] }) else s
    | none => s) s
  let mine := s.dsp.frames.filter fun p => decide (p.2.job.handle = h)
  let s := mine.foldl (fun s p => s.endSpecs h p.2.job.specs) s
  { s with dsp := { s.dsp with frames := s.dsp.frames.map fun p =>
    if p.2.job.handle = h then (p.1, { p.2 with job := { p.2.job with specs := [] } }) else p } }

/-- Free the frame of the step that a transfer closes, and the entry's field SPEC (R36, R38, R146); KV_END moves back to KV_LEN
(05 R108). -/
def State.closeFrame (s : State) (i : Nat) (f : Flight) : State :=
  match f.frame with
  | none => s
  | some n =>
    let s := { s with tok := { s.tok with frames := Tab.set s.tok.frames n { s.tframe n with inUse := false } } }
    let s := s.stepSpecs f.handle
    if f.keepSpec then s else s.updEntry i fun e => { e with spec := false }

/-- T10 (R22, R146): COMMITTED and PEND, the token log, the Hold, the step's close. -/
def State.stage10 (s : State) (f : Flight) (u : Stamp) : State :=
  match s.live f.handle with
  | none =>
    match f.frame with
    | some n => { s with tok := { s.tok with frames := Tab.set s.tok.frames n { s.tframe n with inUse := false } } }
    | none => s
  | some i =>
    if !f.passed then s
    else if f.replay then (if f.fault then s else s.replay10 i f u)
    else
      let s := if f.kind = .token then s.updEntry i fun e => { e with pend := e.pend - 1 } else s
      let s := s.closeFrame i f
      if f.fault then s
      else
        let s := s.setSpec f true
        let before := (s.entry i).eoa
        let base := (s.entry i).committed
        let s := s.updEntry i fun e => { e with committed := (e.committed + f.path.length) % 2 ^ 32 }
        let s := (List.range f.path.length).foldl (fun s j =>
          match (f.path[j]? : Option PathTok) with
          | some p => (s.tlogWrite i (base + j) p.tok u).holdToken i f.stamp (base + j) p u
          | none => s) s
        s.eoaAbandon i before

/-- What T10 of a transfer finds. -/
def State.undoOf (s : State) (f : Flight) : Option Undo :=
  (s.live f.handle).map fun i =>
    let e := s.entry i
    ⟨s.passes i f.stamp, e.req.chunks, e.req.past, e.aseq, e.released, e.lastrel, e.eoa, e.req.lastRepl, e.req.ended⟩

/-- T11 (R22): Mask Out is driven and the notices are raised. -/
def State.stage11 (s : State) (f : Flight) (u : Stamp) : State :=
  let s := match f.desc with
    | some w =>
      let s := { s with pins := { s.pins with maskOut := Tab.set s.pins.maskOut f.lane (drive u w (Tab.getD s.pins.maskOut f.lane [])) } }
      let s := (s.count 6 0x11 1).count 6 0x12 (fld w 87 1)
      (s.count 6 0x13 (fld w 83 1)).count 6 0x1C (fld w 84 1)
    | none => s
  let dom := f.dom
  f.notes.foldl (fun s n =>
    let s := s.note n.1 dom f.handle u n.2
    if n.1 = 0x81 then
      match n.2 with
      | w :: p :: _ => s.logVerdict ((actOf (fld w 2 3)).getD .pass) true 0 dom f.handle (s.entry (hIdx f.handle)).epoch
          0 p.toNat 1 u
      | _ => s
    else s) s

def Flight.due (f : Flight) : Stamp := f.stamp + f.stage
/-- The key of R10, times ten, of the stage that comes next: T11 is the token tier's, T7 and T10 are the Ramp's second and third kind of
event (R48). -/
def Flight.key (f : Flight) : Nat := if f.stage = 11 then kSub 6 else if f.stage = 7 then kRamp 2 else kRamp 3

/-- Order of stages of one stamp: T11, T7, T10; then by lane (R10, R48). -/
def Flight.rank (f : Flight) : Nat := (if f.stage = 11 then 0 else if f.stage = 7 then 8 else 16) + f.lane

def Flight.before (a b : Flight) : Bool := decide (a.due < b.due) || (decide (a.due = b.due) && decide (a.rank < b.rank))

/-- The transfer whose stage comes next. -/
def nextFlight : List Flight → Option Flight
  | [] => none
  | f :: r =>
    match nextFlight r with
    | some g => if g.before f then some g else some f
    | none => some f

/-- Apply one stage of a transfer. -/
def State.runStage (s : State) (f : Flight) : State :=
  let u := f.due
  let s := s.setTally u
  let put := fun (s : State) (g : Option Flight) =>
    { s with tok := { s.tok with path := s.tok.path.flatMap fun x =>
      if x.lane = f.lane ∧ x.stamp = f.stamp then g.toList else [x] } }
  if f.stage = 7 then
    let q := s.stage7 f u
    put q.1 (some q.2)
  else if f.stage = 10 then
    (put s (some { f with stage := 11, undo := if f.passed && !f.fault && !f.replay then s.undoOf f else none })).stage10 f u
  else (put s none).stage11 f u

/-- Is an event of this stamp and key earlier than one stamped t with key `key` (R9, R10)? -/
def earlier (at' k t key : Nat) : Bool := decide (at' < t) || (decide (at' = t) && decide (k < key))

/-- Apply, one a round and in their order, the stages of transfers and the waiting events of the Ramp (R48) that come before an event
stamped t with this key. -/
def State.settle (s : State) (t : Stamp) (key : Nat) : Nat → State
  | 0 => s
  | n + 1 =>
    let stage := fun (f : Flight) => if earlier f.due f.key t key then (s.runStage f).settle t key n else s
    let wait := fun (d : RampDue) (r : List RampDue) =>
      if earlier d.at' d.key t key then
        ((({ s with ramp := { s.ramp with due := r } } : State).setTally d.at').runDue d).settle t key n
      else s
    match nextFlight s.tok.path, s.ramp.due with
    | none, [] => s
    | some f, [] => stage f
    | none, d :: r => wait d r
    | some f, d :: r => if earlier d.at' d.key f.due f.key then wait d r else stage f

/-- Rounds that suffice: three stages a transfer, each of whose sixteen tokens may wait for its release. -/
def State.rounds (s : State) : Nat := 19 * s.tok.path.length + s.ramp.due.length

/-- Before an event stamped t: the stages of earlier transfers that precede it are applied, and the tally moves to t. An event of a
port has the key 0, and an internal one the key of its subsystem (R9, R10, R48). Messages whose wait the last event has ended enter the
notice queue first (R12). -/
def State.upTo (s : State) (t : Stamp) (key : Nat) : State :=
  (if s.running then s.drain.settle (max t s.tally) key s.rounds else s).setTally t

/-- A key behind every event of a stamp. -/
abbrev kAll : Nat := 1000

/-- Before an internal event that another event of its own stamp may have caused: where `ready` does not hold yet, the stages of that
stamp are applied first, since a cause precedes its effect (R10, R11). -/
def State.upToWhen (s : State) (t : Stamp) (key : Nat) (ready : State → Bool) : State :=
  let u := s.upTo t key
  if ready u then u else s.upTo t kAll

end Sys2Proof.Machine
end

