-- ==== Sys2Proof/Machine/Tokens.lean ====
section
/-! DEFINITION. Tokens.lean: the commands of the token ports (02 R19-R39, R372; 12 R267, R268, R270): TOKEN, NODE, ACCEPT, PRIME,
MASK_READ, TOKEN_OUT_WORD, VERDICT_OUT_WORD. -/

namespace Sys2Proof.Machine

abbrev Out := Host.Outcome State Fault Refusal

/-- The response of a control-network access at the tally: taken 4 LCLK later (12 R274). -/
def State.respond (s : State) (w : Word) : State :=
  ({ s with pins := { s.pins with cnData := drive (s.tally + 12) w s.pins.cnData } } : State).takePort

/-- A control-network write with the effect f: presented only while ALIVE is high (12 R276), taken at an LCLK edge at which nothing else
has the port (R274), and answered with zero. -/
def onWrite (t : Stamp) (s : State) (f : State → State) : Out :=
  let s := s.upTo t 0
  if !s.alive || !s.portFree then .next s else .next ((f s).respond 0)

/-- While the tally is not aligned, or with FATAL set, a write that would set one of the enables of R345 from 0 to 1 is ignored
as a whole and counted in bank 0 (15 R345, R351). `rise` lists the enables as (before, after). -/
def State.gated (s : State) (rise : List (Bool × Bool)) (f : State → State) : State :=
  if (!s.clk.talign || s.clk.fatal) && rise.any (fun p => !p.1 && p.2) then s.count 0 0x13 1 else f s

/-! ### Capture -/

/-- May the lane capture a transfer at t, its predecessor apart (R19, R40, R41)? -/
def State.laneReady (s : State) (lane : Nat) (t : Stamp) : Bool :=
  s.alive && s.tokEn && !bitAt s.tok.fenced lane &&
    decide (Tab.getD s.tok.readyAt lane 0 ≤ t) &&
    (match Tab.get s.tok.lastCap lane with
      | some c => decide (c < t)
      | none => true)

/-- The spacing of R21. -/
def spaced (pred : Option Stamp) (t : Stamp) : Bool :=
  match pred with
  | some p => decide (p + 4 ≤ t)
  | none => true

/-- Does a transfer of the kind pass the lookup at T1 (R137, R148)? -/
def Entry.accepts (e : Entry) (k : FKind) : Bool :=
  match e.state with
  | .prompt => e.plast && !e.eoa
  | .answer => !e.eoa
  | .migOut =>
    match k with
    | .token => !e.eoa && decide (e.committed + e.pend < e.migH)
    | .prime => true
    | _ => false
  | .stopped => true
  | .cancelled => true
  | _ => false

/-- The entry that a transfer finds at T1, if it passes the lookup (R23). -/
def State.lookup (s : State) (h : Handle) (k : FKind) : Option Nat :=
  (s.live h).bind fun i => if (s.entry i).accepts k then some i else none

/-- Capture on the lane: the counters of the transfer and of its lookup (R19, R23). -/
def State.captured (s : State) (lane : Nat) (h : Handle) (resv : BitVec 30) (pass isNode : Bool) (t : Stamp) : State :=
  let s := { s with tok := { s.tok with lastCap := Tab.set s.tok.lastCap lane t } }
  let s := ((s.count 6 0x10 1).count 6 0x1D (nb (decide (resv ≠ 0)))).count 2 0x18 1
  let s := if pass then s else s.count 2 0x19 1
  match s.live h with
  | some i => s.updReq i fun r => { r with lastXfer := some t, lastOther := if isNode then r.lastOther else some t }
  | none => s

/-- A transfer in flight that failed its lookup (R23); an ACCEPT drives no descriptor (R20). -/
def failFlight (k : FKind) (lane : Nat) (h : Handle) (node : Nat) (t : Stamp) : Flight where
  kind := k
  lane := lane
  handle := h
  stamp := t
  passed := false
  fault := false
  replay := false
  screen := false
  path := []
  pos := 0
  frame := none
  keepSpec := false
  desc := if k = .accept then none else some (staleWord h node (decide (k = .node)) t)
  notes := []
  stage := 10
  prior := none
  own := none
  touch := [(6, hIdx h, 1)]
  undo := none
  dom := 0

/-- A transfer that passed its lookup, before its kind fills in the rest. -/
def passFlight (k : FKind) (lane : Nat) (h : Handle) (t : Stamp) : Flight :=
  { failFlight k lane h 0 t with passed := true, desc := none }

/-- The committed automaton states of an entry (R40). -/
def State.four (s : State) (i : Nat) : Four := Tab.getD s.tok.states i ⟨0, 0, 0, 0⟩

/-- The notices of a transfer at T11: TOKEN_NOTE, ESCALATE, DEAD_END (R28, R31). -/
def State.pathNotes (s : State) (en : BitVec 4) (f : Four) (v : TokVerdict) (d : Desc) (lane pos : Nat) :
    List (Nat × List Word) :=
  s.tokenNotes en f lane pos ++
    (if v.esc then [(0x81, [BitVec.ofNat 64 (4 * v.act.code), BitVec.ofNat 64 pos])] else []) ++
    (if d.dead then [(0x83, [pack 64 [(0, d.maskId), (16, lane)], BitVec.ofNat 64 pos])] else [])

/-! ### TOKEN (R22, R38, R39, R146) -/

/-- The step that a TOKEN or a node 0 closes (R38). -/
def State.implicitClose (s : State) (i : Nat) : State × Option Nat :=
  match (s.entry i).req.step with
  | some st => ((s.updReq i fun r => { r with step := none }).count 6 0x15 1, some st.frame)
  | none => (s, none)

def State.captureToken (s : State) (lane : Nat) (h : Handle) (x : Nat) (resv : BitVec 30) (t : Stamp) : State :=
  match s.lookup h .token with
  | none => (s.captured lane h resv false false t).push (failFlight .token lane h 0 t)
  | some i =>
    let s := s.captured lane h resv true false t
    let q := s.implicitClose i
    let s := q.1
    let e := s.entry i
    match s.epochOf e with
    | none => s.push (failFlight .token lane h 0 t)
    | some ep =>
      let f := s.advance ep.slotEn (s.four i) x
      let v := s.verdictOf ep.slotEn f
      let d := s.descOf ep f
      let pos := s.nextPos i
      let old := s.four i
      let s := { s with tok := { s.tok with states := Tab.set s.tok.states i f } }
      let s := s.updEntry i fun e => { e with pend := (e.pend + 1) % 4 }
      s.push { passFlight .token lane h t with
        path := [⟨x, v⟩], pos := pos, frame := q.2, stage := 7, prior := some old
        desc := some (descWord h 0 false (decide (v.act = .stop)) d t), notes := s.pathNotes ep.slotEn f v d lane pos
        touch := [(6, hIdx h, 1), (4, i, 2), (4, i, 6)] ++ s.advTouch ep.slotEn old f x }

/-- The stamp of the predecessor of a transfer that is no node (R21). -/
def State.lastXfer (s : State) (h : Handle) : Option Stamp := (s.live h).bind fun i => (s.entry i).req.lastXfer

def execToken (t : Stamp) (lane : Fin 8) (handle : Handle) (tok : BitVec 18) (resv : BitVec 30) (s : State) : Out :=
  let s := s.upTo t 0
  let u := s.tally
  if !s.laneReady lane u then .next s
  else if !spaced (s.lastXfer handle) u then .next (s.count 6 0x18 1)
  else .next (s.captureToken lane handle tok.toNat resv u)

/-! ### NODE (R35, R36, R38) -/

/-- The lowest REASON code among the tree rules a node breaks (R35). -/
def State.treeBreaks (s : State) (st : Option Step) (lane node parent : Nat) (root : Bool) : Option Nat :=
  let nodes := match st with
    | some x => (s.tframe x.frame).nodes
    | none => []
  let p := Tab.get nodes parent
  let order := decide (node ≠ 0) && (match st with
    | some x => decide (x.lane ≠ lane) || decide (x.next ≠ node)
    | none => true)
  let par := !root && (decide (parent ≥ node) || (match p with
    | some q => q.bad
    | none => true))
  let deep := !root && (match p with
    | some q => decide (q.depth ≥ 16)
    | none => false)
  if order then some 0 else if par then some 1 else if deep then some 2 else if !s.specEn then some 3 else none

/-- The lowest-numbered free tree frame (R36). -/
def State.freeFrame (s : State) : Option Nat :=
  let n := Tab.lowestFree (s.tok.frames.filter fun p => p.2.inUse) 0
  if n < 4096 then some n else none

/-- Claim a frame: its generation moves on, so every earlier entry reads as absent (R36, R313). -/
def State.claimFrame (s : State) (n : Nat) : State :=
  { s with tok := { s.tok with frames := Tab.set s.tok.frames n ⟨genSucc (s.tframe n).gen, true, []⟩ } }

def State.putNode (s : State) (frame node : Nat) (x : TNode) : State :=
  let f := s.tframe frame
  { s with tok := { s.tok with frames := Tab.set s.tok.frames frame { f with nodes := Tab.set f.nodes node x } } }

def badTreeNote (node reason lane : Nat) : Nat × List Word := (0x84, [pack 64 [(0, node), (6, reason), (10, lane)]])

/-- A BADTREE node (R35): forced STOP_TOK, one notice; a node n > 0 counts in the open step's SPEC_N (R146), and a node 0 closes the
open step (R38). DESIGN CHOICE (log entry 31): one out of order (REASON 0) counts there and is otherwise no node of the step: the
index expected next stays, a later node or ACCEPT finds no such node, and R21 takes it for another transfer. -/
def State.captureBad (s : State) (i lane node reason : Nat) (h : Handle) (tok parent : Nat) (t : Stamp) : State :=
  let q := if node = 0 then s.implicitClose i else (s, none)
  let s := q.1
  let e := s.entry i
  let stopTok := ((s.epochOf e).map fun p => p.stopTok).getD 0
  let s := match e.req.step with
    | some st =>
      if node = 0 then s
      else
        let s := s.updEntry i fun e => { e with specN := min 64 (e.specN + 1) }
        if reason = 0 then s
        else
          (s.putNode st.frame node ⟨true, ⟨0, 0, 0, 0⟩, ⟨.pass, false, 0⟩, 0, some parent, tok, t, false⟩).updReq i fun r =>
            { r with step := some { st with next := node + 1 } }
    | none => s
  (s.count 6 0x14 1).push { passFlight .node lane h t with
    frame := q.2, desc := some (badTreeWord h node stopTok t), notes := [badTreeNote node reason lane] }

/-- A node of a sound step advances the automata from its parent's states, or from the committed ones (R35-R38, R146). -/
def State.captureNode (s : State) (i lane node parent : Nat) (root : Bool) (h : Handle) (x : Nat) (frame : Nat)
    (prev : Option Stamp) (t : Stamp) : State :=
  let q := if node = 0 then s.implicitClose i else (s, none)
  let s := q.1
  let s := if node = 0 then
      let s := s.claimFrame frame
      s.updEntry i fun e => { e with
        spec := true, frame := frame, fgen := (s.tframe frame).gen, specN := 1, steps := (e.steps + 1) % 2 ^ 32
        req := { e.req with step := some ⟨lane, frame, (s.tframe frame).gen, 1⟩, lastOther := prev } }
    else s.updEntry i fun e => { e with
        specN := min 64 (e.specN + 1)
        req := { e.req with step := e.req.step.map fun st => { st with next := node + 1 } } }
  let e := s.entry i
  match s.epochOf e with
  | none => s.push (failFlight .node lane h node t)
  | some ep =>
    let p := if root then none else Tab.get (s.tframe frame).nodes parent
    let base := match p with
      | some y => y.states
      | none => s.four i
    let depth := match p with
      | some y => y.depth + 1
      | none => 1
    let f := s.advance ep.slotEn base x
    let v := s.verdictOf ep.slotEn f
    let d := s.descOf ep f
    let pos := s.nextPos i + depth - 1
    let s := s.putNode frame node ⟨false, f, v, depth, if root then none else some parent, x, t, false⟩
    s.push { passFlight .node lane h t with
      pos := pos, frame := q.2, keepSpec := true, own := some (frame, node)
      desc := some (descWord h node true (decide (v.act = .stop)) d t), notes := s.pathNotes ep.slotEn f v d lane pos
      touch := [(6, hIdx h, 1), (4, if root then i else nodePlace frame parent, 2), (4, nodePlace frame node, 6)] ++
        s.advTouch ep.slotEn base f x }

/-- The predecessor of a NODE (R21). DESIGN CHOICE: of a node 0 that is no root, whose parent no step holds, it is the request's last
transfer, as for a root node 0; a later node whose parent the open step does not hold, or without an open step, has no predecessor and is
captured at once (log entry 31). -/
def State.nodePred (s : State) (h : Handle) (node parent : Nat) (root : Bool) : Option Stamp :=
  (s.live h).bind fun i =>
    let r := (s.entry i).req
    if node = 0 then r.lastXfer
    else if root then r.lastOther
    else r.step.bind fun st => (Tab.get (s.tframe st.frame).nodes parent).map fun p => p.stamp

def execNode (t : Stamp) (lane : Fin 8) (handle : Handle) (tok : BitVec 18) (node parent : BitVec 6) (root : Bool)
    (resv : BitVec 30) (s : State) : Out :=
  let s := s.upTo t 0
  let u := s.tally
  let n := node.toNat
  let p := parent.toNat
  if !s.laneReady lane u then .next s
  else if !spaced (s.nodePred handle n p root) u then .next (s.count 6 0x18 1)
  else if decide (n = 0) && (s.treeBreaks none lane n p root).isNone && s.freeFrame.isNone then .next (s.count 6 0x19 1)
  else
    match s.lookup handle .node with
    | none => .next ((s.captured lane handle resv false false u).push (failFlight .node lane handle n u))
    | some i =>
      let st := (s.entry i).req.step
      match s.treeBreaks (if n = 0 then none else st) lane n p root with
      | some r => .next ((s.captured lane handle resv true (decide (n ≠ 0) && decide (r ≠ 0)) u).captureBad i lane n r handle tok.toNat p u)
      | none =>
        if n = 0 then
          .next ((s.captured lane handle resv true true u).captureNode i lane n p root handle tok.toNat (s.freeFrame.getD 0)
            (s.entry i).req.lastXfer u)
        else
          .next ((s.captured lane handle resv true true u).captureNode i lane n p root handle tok.toNat
            ((st.map fun x => x.frame).getD 0) none u)

/-! ### ACCEPT (R37) -/

/-- The accepted path: the named node and its ancestors, in depth order. -/
def pathOf (nodes : Tab TNode) : Nat → Nat → List TNode → List TNode
  | 0, _, acc => acc
  | k + 1, n, acc =>
    match Tab.get nodes n with
    | none => acc
    | some x =>
      match x.parent with
      | some p => pathOf nodes k p (x :: acc)
      | none => x :: acc

/-- The indices of the accepted path. -/
def pathIdx (nodes : Tab TNode) : Nat → Nat → List Nat → List Nat
  | 0, _, acc => acc
  | k + 1, n, acc =>
    match (Tab.get nodes n).bind fun x => x.parent with
    | some p => pathIdx nodes k p (n :: acc)
    | none => n :: acc

def State.captureAccept (s : State) (i lane node : Nat) (noNode : Bool) (h : Handle) (t : Stamp) : State :=
  let e := s.entry i
  let s := s.count 6 0x16 1
  let fl := fun (path : List PathTok) (pos : Nat) (fr : Option Nat) (ns : List (Nat × List Word)) =>
    { passFlight .accept lane h t with
      path := path, pos := pos, frame := fr, notes := ns, stage := 7, prior := if path.isEmpty then none else some (s.four i) }
  match e.req.step with
  | none => s.push (fl [] 0 none [badTreeNote node 6 lane])
  | some st =>
    let s := s.updReq i fun r => { r with step := none }
    if noNode then s.push (fl [] 0 (some st.frame) [])
    else
      match Tab.get (s.tframe st.frame).nodes node with
      | none => s.push (fl [] 0 (some st.frame) [badTreeNote node 4 lane])
      | some x =>
        if x.bad then s.push (fl [] 0 (some st.frame) [badTreeNote node 5 lane])
        else
          let path := (pathOf (s.tframe st.frame).nodes 16 node []).map fun y => (⟨y.tok, y.v⟩ : PathTok)
          let pos := s.nextPos i
          let s := { s with tok := { s.tok with states := Tab.set s.tok.states i x.states } }
          s.push { fl path pos (some st.frame) [] with
            touch := [(6, hIdx h, 1), (4, nodePlace st.frame node, 2), (4, i, 6)] ++
              (pathIdx (s.tframe st.frame).nodes 16 node []).map fun k => (4, nodePlace st.frame k, 7) }

/-- The predecessor of an ACCEPT: the step's latest node (R21). DESIGN CHOICE: without an open step, and for a step whose latest node
wrote no frame entry (R40), it is the request's last transfer, and a node out of order is no node of the step (log entry 31). -/
def State.acceptPred (s : State) (h : Handle) : Option Stamp :=
  (s.live h).bind fun i =>
    let r := (s.entry i).req
    match r.step with
    | some st => match Tab.get (s.tframe st.frame).nodes (st.next - 1) with
      | some p => some p.stamp
      | none => r.lastXfer
    | none => r.lastXfer

def execAccept (t : Stamp) (lane : Fin 8) (handle : Handle) (node : BitVec 6) (noNode : Bool) (resv : BitVec 30) (s : State) :
    Out :=
  let s := s.upTo t 0
  let u := s.tally
  if !s.laneReady lane u then .next s
  else if !spaced (s.acceptPred handle) u then .next (s.count 6 0x18 1)
  else
    match s.lookup handle .accept with
    | none => .next ((s.captured lane handle resv false false u).push (failFlight .accept lane handle 0 u))
    | some i => .next ((s.captured lane handle resv true false u).captureAccept i lane node.toNat noNode handle u)

/-! ### PRIME (R372) -/

def State.capturePrime (s : State) (i lane : Nat) (h : Handle) (t : Stamp) : State :=
  match s.epochOf (s.entry i) with
  | none => s.push (failFlight .prime lane h 0 t)
  | some ep =>
    let d := s.descOf ep (s.four i)
    s.push { passFlight .prime lane h t with
      desc := some (descWord h 0 false false d t)
      touch := [(6, hIdx h, 1), (4, i, 2)] ++ s.primeTouch ep.slotEn (s.four i) }

def execPrime (t : Stamp) (lane : Fin 8) (handle : Handle) (resv : BitVec 30) (s : State) : Out :=
  let s := s.upTo t 0
  let u := s.tally
  if !s.laneReady lane u then .next s
  else if !spaced (s.lastXfer handle) u then .next (s.count 6 0x18 1)
  else
    match s.lookup handle .prime with
    | none => .next ((s.captured lane handle resv false false u).push (failFlight .prime lane handle 0 u))
    | some i => .next ((s.captured lane handle resv true false u).capturePrime i lane handle u)

/-! ### MASK_READ (R34) -/

/-- Is a repair of the mask store's line under way (14 R315)? The repairs listed with code 0x03 number the lines, 512 a mask. -/
def State.maskRepair (s : State) (id line : Nat) (t : Stamp) : Bool :=
  s.wch.repairs.any fun r => decide (r.1 = 0x03) && decide (r.2.1 = 512 * id + line) && decide (t < r.2.2)

/-- The line that a Mask Read returns, or not-valid (R34). -/
def State.maskLine (s : State) (id gen line : Nat) (t : Stamp) : Option (BitVec 512) :=
  let m := s.mask id
  if id < 1024 ∧ m.used ∧ m.gen = gen ∧ s.maskRepair id line t = false then some (m.bits.extractLsb' (512 * line) 512) else none

def execMaskRead (t : Stamp) (chan : Fin 8) (id : BitVec 16) (gen : BitVec 8) (line : BitVec 9) (s : State) : Out :=
  let s := s.upTo t 0
  let u := s.tally
  let due := Tab.getD s.pins.maskRsp chan []
  if !s.alive || (drivenAt (u + 4) due).isSome then .next s   -- one read a GCLK on a channel (12 R265)
  else
    let r := s.maskLine id.toNat gen.toNat line.toNat u
    let s := (s.count 6 0x1A 1).count 6 0x1B (nb r.isNone)
    .next { s with pins := { s.pins with maskRsp := Tab.set s.pins.maskRsp chan (drive (u + 4) (r.isSome, r.getD 0) due) } }

/-! ### Token Out and Verdict Out (12 R265, R268, R270): at most one word an edge on a lane -/

def execTokenOutWord (t : Stamp) (lane : Fin 8) (s : State) : Out :=
  let s := s.upTo t (kRamp 6)
  let u := s.tally
  match s.ramp.outq.find? fun w => decide (w.lane = lane.val) with
  | none => .next s
  | some w =>
    let last := Tab.get s.pins.toWord lane
    if !s.alive || !s.rampEn || decide (u < w.since) || decide (last.map (fun x => x.1) = some u) then .next s
    else
      let before := s.holdUse
      let s := { s with
        ramp := { s.ramp with outq := s.ramp.outq.erase w }
        pins := { s.pins with toWord := Tab.set s.pins.toWord lane (u, w.word) } }
      .next ((s.count 11 0x12 1).holdWatch before u)

def execVerdictOutWord (t : Stamp) (s : State) : Out :=
  let s := s.upTo t (kRamp 6)
  let u := s.tally
  match s.ramp.voq with
  | [] => .next s
  | w :: r =>
    if !s.alive || !s.rampEn || decide (u < w.1 + 2) || decide (s.pins.voWord.map (fun x => x.1) = some u) then .next s
    else
      let s := { s with ramp := { s.ramp with voq := r }, pins := { s.pins with voWord := some (u, w.2) } }
      .next (s.count 11 0x19 1)

end Sys2Proof.Machine
end

