-- ==== Sys2Proof/Machine/Memory.lean ====
section
/-! DEFINITION. Memory.lean: the memory side (13 R287-R296; 12 R271-R273): page headers, state copies and flushes, the state
cache, the memory ports, region writes; the commands MEMORY_REQUEST, MEMORY_RESPONSE, SC_FLUSH, RGN_D0_WRITE, RGN_D1_WRITE. -/

namespace Sys2Proof.Machine

/-! ### Ferry packets handed to a group (R304, R305) -/

def Group.isUp (x : Group) : Bool := decide (x.phase = .up)

/-- Does a packet advance SEQ and need a credit (R304, R305)? LINK packets are exchanged before credits are. -/
def TxPkt.credited (p : TxPkt) : Bool := decide (p.typ ≠ 0) && decide (p.typ ≠ 1) && decide (p.typ ≠ 8)

/-- A packet leaves: all but IDLE and BEAT advance SEQ and enter the retry buffer of 512. Its header returns the receive places freed
since the previous one, and its trailer names the highest SEQ received in order. With LOOP = 1 it goes to the group's own receiver
(R310). -/
def State.transmit (s : State) (g : Nat) (p : TxPkt) : State :=
  let x := s.group g
  let cred := min x.freed 1023
  let w : Sent := ⟨g, s.tally, x.txSeq, cred, (x.rxSeq + 65535) % 65536, p⟩
  let x := { x with freed := x.freed - cred }
  let x := if p.typ = 0 ∨ p.typ = 8 then x
    else { x with
      link := if p.credited then x.link - 1 else x.link
      txSeq := (x.txSeq + 1) % 65536
      retry := (x.retry ++ [w]).drop (x.retry.length - 511) }
  let s := s.setGroup g x
  let q := s.fry.sent ++ [w]
  (({ s with fry := { s.fry with
    sent := q.drop (q.length - 512)
    looped := if s.fry.loop then s.fry.looped ++ [w] else s.fry.looped } } : State).count 13 0x10 1).count 13 0x13 (nb (decide (p.typ = 6)))

/-- The payload bytes that a packet uses: those of a STATE packet, REASON in a payload of LEN 4 (R307), none where the packet carries no
payload; the places of the other packets' fields are open. -/
def Payload.used : Payload → List Byte
  | .none => []
  | .link b g c sw => (Config.payload [1, b, g, c, (sw.map fun n => n + 1).getD 0]).take 240
  | .offer src ep h n => (Config.payload [2, src.toNat, ep, h, n]).take 240
  | .data bs => bs.take 240
  | .crc v => (Config.payload [4, v.toNat]).take 240
  | .reason r => [BitVec.ofNat 8 r, 0, 0, 0]
  | .mirror i off bs => (Config.payload (7 :: i :: off :: bs.map fun b => b.toNat)).take 240

/-- The header and the payload of a packet, 248 bytes; unused payload bytes are zero (R304). -/
def Sent.front (w : Sent) : List Byte :=
  let bs := w.pkt.body.used
  leBytes 8 (pack 64 [(0, w.pkt.typ % 16), (4, w.seq % 65536), (20, w.pkt.dom % 256), (28, bs.length), (36, w.pkt.xfer % 65536),
    (52, w.cred % 1024)]).toNat ++ bs ++ List.replicate (240 - bs.length) 0

/-- The 256 bytes that a packet sends (R304): its trailer holds the CRC-32C of the header and the payload, and ACKSEQ. -/
def Sent.bytes (w : Sent) : List Byte :=
  w.front ++ leBytes 8 (pack 64 [(0, (crc32c w.front).toNat), (32, w.ack % 65536)]).toNat

/-- The request that a packet concerns, as XFER_FAIL names it. -/
def State.pktHandle (s : State) (p : TxPkt) : Handle :=
  match p.body with
  | .offer src _ _ _ => src
  | .mirror idx _ _ => s.handleOf idx
  | _ => 0

/-- XFER_FAIL (R310). -/
def State.xferFail (s : State) (d : Nat) (h : Handle) (g xfer : Nat) (t : Stamp) : State :=
  s.note 0xB4 d h t [pack 64 [(0, g), (16, xfer)]]

/-- A packet joins the transmit queue. One that finds it full is dropped and counted in the gap marker at the tail, for which the last
place is kept; a new marker counts in OVF and raises XFER_FAIL (R298). A rise of the use to the queue's level raises the interrupt
(R299). -/
def State.enqueue (s : State) (g : Nat) (p : TxPkt) : State :=
  let x := s.group g
  let n := x.backlog.length
  if n < 511 then
    let s := s.setGroup g { x with backlog := x.backlog ++ [.pkt p] }
    if x.txQ.ie ∧ n < x.txQ.level ∧ x.txQ.level ≤ n + 1 then s.irq s.tally else s
  else match x.backlog.getLast? with
    | some (.gap k a _) => s.setGroup g { x with backlog := x.backlog.dropLast ++ [.gap (k + 1) a s.tally] }
    | _ =>
      let s := s.setGroup g { x with backlog := x.backlog ++ [.gap 1 s.tally s.tally] }
      let s := if x.txQ.ie ∧ n < x.txQ.level ∧ x.txQ.level ≤ n + 1 then s.irq s.tally else s
      ({ s with fry := { s.fry with ovf := (s.fry.ovf + 1) % 65536 } } : State).xferFail p.dom (s.pktHandle p) g p.xfer s.tally

/-- A packet of a state transfer takes a place of the transmit queue once one is free. -/
def State.feedQueue (s : State) (g : Nat) : State :=
  let x := s.group g
  match x.feed with
  | [] => s
  | p :: r => if x.backlog.length < 511 then (s.setGroup g { x with feed := r }).enqueue g p else s

/-- Packets wait while their group is down or without a credit, in order (R303, R305). -/
def State.pump (s : State) (g : Nat) : Nat → State
  | 0 => s
  | n + 1 =>
    let s := s.feedQueue g
    let x := s.group g
    match x.backlog with
    | [] => s
    | .gap _ _ _ :: r => (s.setGroup g { x with backlog := r }).pump g n
    | .pkt p :: r =>
      if x.isUp && (!p.credited || decide (x.link > 0)) then ((s.setGroup g { x with backlog := r }).transmit g p).pump g n
      else s.feedQueue g

/-- What waits for a group goes as far as it may. -/
def State.pumpAll (s : State) (g : Nat) : State := s.pump g ((s.group g).backlog.length + 2 * (s.group g).feed.length + 512)

/-- Packets for a group join its queue, and those that may leave do. -/
def State.sendAll (s : State) (g : Nat) (ps : List TxPkt) : State := (ps.foldl (fun s p => s.enqueue g p) s).pumpAll g

/-- The packets of a state transfer go to the queue as its places free. -/
def State.sendStream (s : State) (g : Nat) (ps : List TxPkt) : State :=
  (s.setGroup g { s.group g with feed := (s.group g).feed ++ ps }).pumpAll g

/-- The ACK of a transfer, and a NAK that names one and its REASON (R307). -/
def State.sendAck (s : State) (g dom xfer : Nat) : State := s.sendAll g [⟨5, dom, xfer, .none, false⟩]
def State.sendNak (s : State) (g dom xfer reason : Nat) : State := s.sendAll g [⟨6, dom, xfer, .reason reason, false⟩]

/-- Bytes in packets of 240. -/
def inPackets : Nat → List Byte → List (List Byte)
  | 0, _ => []
  | n + 1, bs => if bs.isEmpty then [] else bs.take 240 :: inPackets n (bs.drop 240)

/-! ### State copies (R293; log entry 16 fixes the places that the table leaves open) -/

structure SCopy where
  committed : Nat
  aseq      : Nat
  states    : Four
  kv        : List KvRec
  ptext     : TextState
  atext     : TextState
  acc       : Tab AccState
  pview     : Nat
deriving DecidableEq, Repr

/-- Exactly n bytes: cut, or padded with zeros. -/
def fitBytes (n : Nat) (bs : List Byte) : List Byte := (bs ++ List.replicate n 0).take n

/-- SEQ as a 32-bit field; all ones stands for the initial state (14 R325). -/
def seqField (q : Option Nat) : Nat := q.getD 0xFFFFFFFF
def fieldSeq (n : Nat) : Option Nat := if n = 0xFFFFFFFF then none else some n

def textBytes (t : TextState) (pview : Nat) : List Byte :=
  fitBytes 0x400 (
    (BitVec.ofNat 8 t.utf8.length :: fitBytes 7 t.utf8) ++ leBytes 8 t.bad ++ leBytes 8 t.fffd ++ leBytes 8 pview ++
    fitBytes 0x60 (t.pats.flatMap fun p => leBytes 4 (p.state.getD 0xFFFFFFFF) ++ leBytes 4 (seqField p.seq)) ++
    t.carries.flatMap fun c =>
      fitBytes 128 (BitVec.ofNat 8 c.bytes.length :: c.bytes) ++ fitBytes 16 (leBytes 4 (seqField c.seq)))

def State.readText (s : State) (a : Nat) : TextState where
  utf8 := s.rd (a + 1) (memGet s.mem.bytes a).toNat
  bad := leNat (s.rd (a + 8) 8)
  fffd := leNat (s.rd (a + 16) 8)
  pats := (List.range 8).map fun k =>
    let st := leNat (s.rd (a + 0x20 + 8 * k) 4)
    ⟨if st = 0xFFFFFFFF then none else some st, fieldSeq (leNat (s.rd (a + 0x24 + 8 * k) 4))⟩
  carries := (List.range 4).map fun k =>
    let b := a + 0x80 + 0x90 * k
    ⟨s.rd (b + 1) (memGet s.mem.bytes b).toNat, fieldSeq (leNat (s.rd (b + 128) 4))⟩

def accBytes (x : AccState) : List Byte :=
  fitBytes 0x200 (x.accs.flatMap fun a => leBytes 4 a.value.toNat ++ leBytes 4 a.n) ++
    fitBytes 0x40 (leBytes 4 x.accs.length ++ leBytes 4 (seqField x.seq))

def State.readAcc (s : State) (a : Nat) : AccState where
  accs := (List.range (leNat (s.rd (a + 0x200) 4))).map fun k => ⟨s.rd32 (a + 8 * k), leNat (s.rd (a + 8 * k + 4) 4)⟩
  seq := fieldSeq (leNat (s.rd (a + 0x204) 4))

/-- The state of an accumulator group that no FEATURE has updated yet. -/
def AccState.init : AccState := ⟨[], none⟩

/-- The bytes of a state copy, each part at its offset in R293. -/
def SCopy.bytes (c : SCopy) : List Byte :=
  fitBytes 0x40 (leBytes 4 c.committed ++ leBytes 4 c.aseq ++
    leBytes 8 (c.states.a0 + c.states.a1 <<< 20 + c.states.a2 <<< 40) ++ leBytes 8 c.states.a3) ++
  fitBytes 0xC0 (c.kv.flatMap fun k => fitBytes 32 (leBytes 8 k.len ++ leBytes 8 k.fin ++ leBytes 4 (seqField k.seq))) ++
  textBytes c.ptext c.pview ++ textBytes c.atext 0 ++
  (List.range 8).flatMap fun k => accBytes (Tab.getD c.acc k AccState.init)

/-- Read a state copy back. -/
def State.readCopy (s : State) (a : Nat) : SCopy where
  committed := leNat (s.rd a 4)
  aseq := leNat (s.rd (a + 4) 4)
  states :=
    let w := s.rd64 (a + 8)
    ⟨fld w 0 20, fld w 20 20, fld w 40 20, fld (s.rd64 (a + 16)) 0 20⟩
  kv := (List.range 4).map fun m =>
    let b := a + 0x40 + 32 * m
    ⟨leNat (s.rd b 8), leNat (s.rd (b + 8) 8), fieldSeq (leNat (s.rd (b + 16) 4))⟩
  ptext := s.readText (a + 0x100)
  atext := s.readText (a + 0x500)
  acc := (List.range 8).map fun k => (k, s.readAcc (a + 0x900 + 0x240 * k))
  pview := leNat (s.rd (a + 0x118) 8)

/-- Bytes of one copy in the control page. -/
def copySize : Nat := 0x3F00
def copyAddr (page : Nat) (c : Bool) : Nat := page + if c then 0x4100 else 0x100

/-- The control page of an entry: entry 0 of its page list (R291). -/
def State.ctlPage (s : State) (i : Nat) : Option Run :=
  (s.runs (s.entry i).plist (s.entry i).npage).head?

/-- The flush header (R293): CUR, FSEQ, FSTAMP, DOM, EPOCH and LOGFULL. -/
structure FlushHdr where
  cur     : Bool
  fseq    : Nat
  fstamp  : Stamp
  dom     : Nat
  epoch   : Nat
  logfull : Bool
deriving DecidableEq, Repr

def State.flushHdr (s : State) (page : Nat) : FlushHdr :=
  let w := s.rd64 (page + 0x40)
  let x := s.rd64 (page + 0x50)
  ⟨bitAt w 0, fld w 32 32, (s.rd64 (page + 0x48)).toNat, fld x 0 8, fld x 16 16, bitAt x 32⟩

def FlushHdr.bytes (h : FlushHdr) : List Byte :=
  leBytes 8 (nb h.cur + h.fseq <<< 32) ++ leBytes 8 h.fstamp ++ leBytes 8 (h.dom + h.epoch <<< 16 + nb h.logfull <<< 32)

/-! ### Flushes (R294, R308) -/

/-- The token-tier states that belong to COMMITTED: those before the oldest transfer that has not reached T10 (R294). -/
def State.flushFour (s : State) (i : Nat) : Four :=
  let h := s.handleOf i
  match s.tok.path.findSome? fun f => if f.handle = h ∧ f.passed ∧ ¬ f.replay ∧ f.stage ≤ 10 then f.prior else none with
  | some x => x
  | none => s.four i

def State.copyOf (s : State) (i : Nat) : SCopy :=
  let e := s.entry i
  ⟨e.committed, e.aseq, s.flushFour i, e.req.kv, e.req.ptext, e.req.atext, e.req.acc, e.req.pview⟩

/-- The MIRROR packets of a flush of entry i: the copy, at 0x100 of the peer's slot, then bytes [0, 0x100) of the control page (R308). They
wait in the queue of group MIRG while it is down (R303). -/
def State.mirrorFlush (s : State) (i page : Nat) : State :=
  if s.fry.miren then
    let e := s.entry i
    let pk := fun (base : Nat) (bs : List Byte) => (inPackets bs.length bs).mapIdx fun k b =>
      (⟨7, e.dom, 0, .mirror i (base + 240 * k) b, false⟩ : TxPkt)
    let ps := pk 0x100 (s.rd (copyAddr page (s.flushHdr page).cur) copySize) ++ pk 0 (s.rd page 0x100)
    (s.sendAll s.fry.mirg ps).count 13 0x19 ps.length
  else s

/-- May Vyath use a page on behalf of entry i: the regions grant it to the domain, and its header is the one listed (R287, R292)? -/
def State.ctlOk (s : State) (i : Nat) (r : Run) : Bool := s.ownedWr (s.entry i).dom r.page 65536 && s.pageOk r.page r.owner r.gen

/-- The check of the control page of entry i has failed: the memory port's detector trips for its request (R287; log entry 81). -/
def State.ctlTrip (s : State) (i : Nat) (r : Run) (t : Stamp) : State :=
  (if s.ownedWr (s.entry i).dom r.page 65536 then s else s.viol).memTrip 0 i t

/-- Bytes of entry i's control page are stored through the state cache and written back (R296). -/
def State.ctlStore (s : State) (i : Nat) (r : Run) (ws : List (Nat × List Byte)) : State :=
  (ws.foldl (fun s w => s.scStore w.1 w.2 r.owner r.gen) s).scClean i

/-- The check of entry i's pages before its lines are written back: the control page, and every page with a dirty line (R287, R292). -/
def State.flushOk (s : State) (i : Nat) (r : Run) : Bool := s.ctlOk i r && (s.scBad i).isEmpty

/-- A flush whose check fails: the memory port's detector trips for the request (R287; log entry 81). A dirty line that may not be written
back is discarded. -/
def State.flushTrip (s : State) (i : Nat) (r : Run) (t : Stamp) : State :=
  if !s.ctlOk i r then s.ctlTrip i r t
  else
    let bad := s.scBad i
    let n := (bad.filter fun p => !s.ownedWr p.2.owner (64 * p.1) 64).length
    let s := (List.range n).foldl (fun s _ => s.viol) s
    ({ s with mem := { s.mem with scLines := s.mem.scLines.filter fun p => !bad.contains p } } : State).memTrip 0 i t

/-- A flush of entry i at stamp t (R294): the copy that is not current, then the flush header, through the state cache; every dirty line of
the request is written back (R296). The pages' headers and rights are checked first (R287, R292). While no request is issued the flush waits
(R309). -/
def State.flush (s : State) (i : Nat) (t : Stamp) : State :=
  let e := s.entry i
  if !s.mem.en then { s with mem := { s.mem with delayed := s.mem.delayed ++ [.flush i] } }
  else match s.ctlPage i with
  | none => s
  | some r =>
    if s.flushOk i r then
      let h := s.flushHdr r.page
      let h' : FlushHdr := ⟨!h.cur, (h.fseq + 1) % 2 ^ 32, t, e.dom, e.epoch, e.req.logfull⟩
      let s := s.ctlStore i r [(copyAddr r.page h'.cur, (s.copyOf i).bytes), (r.page + 0x40, h'.bytes)]
      let s := ({ s with mem := { s.mem with flushes := (s.mem.flushes + 1) % 2 ^ 32 } } : State).count 12 0x17 1
      (s.updReq i fun q => { q with flushed := true }).mirrorFlush i r.page
    else s.flushTrip i r t

/-- The bytes of a MIRROR packet go to the mirror slot; an access that fails is discarded and trips the port's detector (R287, R308). While
no request is issued they wait (R309). -/
def State.mirrorWrite (s : State) (a : Nat) (bs : List Byte) : State :=
  if !s.mem.en then { s with mem := { s.mem with delayed := s.mem.delayed ++ [.mirror a bs] } }
  else if s.ownedWr 0 a bs.length then s.wr a bs
  else s.blockTrip 0 s.tally

/-- What waited while no request was issued is issued, in order, and checked then (R287, R288, R309). -/
def State.resume (s : State) (t : Stamp) : State :=
  s.mem.delayed.foldl (fun s d => match d with
    | .area h role o bs => match s.live h with
      | some i => s.areaWrite i role o bs t
      | none => s
    | .mirror a bs => s.mirrorWrite a bs
    | .flush i => if (s.entry i).state = .free then s else s.flush i t) { s with mem := { s.mem with delayed := [] } }

/-- Page headers of a new entry (R292). -/
def State.writeHeaders (s : State) (i : Nat) : State :=
  let e := s.entry i
  let h := s.handleOf i
  (s.runs e.plist e.npage).foldl (fun s r =>
    (List.range (2 ^ r.run)).foldl (fun s k => s.wr (r.page + k * 65536) (pageHeader r.owner r.gen h)) s) s

/-- The copy and flush header of an entry whose state came from elsewhere: CUR 0, FSEQ 0 (log entry 16). -/
def State.firstCopy (s : State) (i : Nat) (t : Stamp) : State :=
  let e := s.entry i
  match s.ctlPage i with
  | none => s
  | some r =>
    if s.flushOk i r then
      (s.ctlStore i r [(copyAddr r.page false, (s.copyOf i).bytes),
        (r.page + 0x40, FlushHdr.bytes ⟨false, 0, t, e.dom, e.epoch, e.req.logfull⟩)]).updReq i fun q => { q with flushed := true }
    else s.flushTrip i r t

/-- The committed state to which a recovery goes back: the current copy, or the state at the start of a request that has not been
flushed (R294; log entry 16). -/
def State.current (s : State) (i page : Nat) : SCopy :=
  if (s.entry i).req.flushed then s.readCopy (copyAddr page (s.flushHdr page).cur)
  else
    let r := Req.init
    ⟨0, 0, ((s.epochOf (s.entry i)).map fun p => p.start).getD ⟨0, 0, 0, 0⟩, r.kv, r.ptext, r.atext, r.acc, r.pview⟩

/-- A copy's states become the committed states of entry i (R321). -/
def State.install (s : State) (i : Nat) (c : SCopy) : State :=
  ({ s with tok := { s.tok with states := Tab.set s.tok.states i c.states } } : State).updReq i fun r =>
    { r with kv := c.kv, ptext := c.ptext, atext := c.atext, acc := c.acc, pview := c.pview }

/-! ### Snapshots on the port (16 R369) -/

/-- A snapshot is discarded: counted as skipped; a command completes with BUSY. -/
def State.dropSnap (s : State) (seq : Nat) : State :=
  match s.cnt.snaps.find? fun x => x.seq = seq with
  | none => s
  | some x =>
    let s := ({ s with cnt := { s.cnt with
      snaps := s.cnt.snaps.filter fun y => y.seq ≠ seq
      skipped := min 65535 (s.cnt.skipped + 1) } } : State).count 14 0x1C 1
    let p := s.port 2
    (s.setPort 2 { p with waitq := p.waitq.filter fun q => q.who ≠ .snap seq }).completeOpt x.cmd stBUSY []

/-! ### The ports (12 R271, R272) -/

/-- The next tag that is not outstanding, from nextTag on. -/
def Port.tag (p : Port) : Nat :=
  ((List.range 256).map fun k => (p.nextTag + k) % 256).find? (fun k => (Tab.get p.out k).isNone) |>.getD 0

def lineBytes (w : BitVec 1024) : List Byte := (List.range 128).map fun i => w.extractLsb' (8 * i) 8

/-- A request that fails its check is not issued (R287). -/
def State.failReq (s : State) (q : MReq) (t : Stamp) : State :=
  match q.who with
  | .ldm sl _ _ => s.viol.jobFault sl 0x18 0 t
  | .snap n => s.viol.dropSnap n

def execMemoryRequest (t : Stamp) (port : Fin 16) (s : State) : Out :=
  let s := s.upTo t (kSub 12)
  let u := s.tally
  let p := s.port port
  match p.waitq with
  | [] => .next s
  | q :: r =>
    -- one request an MCLK edge (12 R272)
    if !s.alive || !s.mem.en || decide (p.out.length ≥ 256) || decide (p.shown.map (fun x => edgeUp 2 x.1) = some (edgeUp 2 u)) then
      .next s
    else
      let s := s.setPort port { p with waitq := r }
      if !s.reqOk q then .next (s.failReq q u)
      else
        let k := p.tag
        let p : Port := { p with waitq := r, out := Tab.set p.out k q, nextTag := (k + 1) % 256, shown := some (u, k, q) }
        -- the next request's tag is drawn now, so that no response changes it while that request is presented (12 R265)
        let s := s.setPort port { p with nextTag := p.tag }
        if q.write then .next ((s.wr q.line (lineBytes q.data)).count 12 0x11 1)
        else .next (s.count 12 0x10 1)

/-- The loaded value of an LDM and whether its word is poisoned (10 R217). -/
def ldmValue (data : BitVec 1024) (pois : BitVec 16) (err : Bool) (l : Ldm) : Reg :=
  let o := l.addr % 128
  ⟨BitVec.ofNat 64 (fld data (8 * o) (8 * l.size)), err || bitAt pois (o / 8)⟩

/-- Deliver a read return to the job that waits for it. -/
def State.deliver (s : State) (sl id inst : Nat) (data : BitVec 1024) (pois : BitVec 16) (err : Bool) : State :=
  match s.job sl with
  | none => s
  | some j =>
    match j.ldms.find? fun l => l.id = id with
    | none => s
    | some l =>
      if j.inst ≠ inst then s
      else
        let v := ldmValue data pois err l
        s.setJob sl (some { j with
          ldms := j.ldms.erase l
          regs := if l.gr = 0 then j.regs else putAt ⟨0, false⟩ j.regs l.gr v })

/-- The request that a response concerns, for the memory-port detector; `inj` marks an injected ERR (14 R319, R320). -/
def State.errTrip (s : State) (port : Nat) (who : Purpose) (inj : Bool) (t : Stamp) : State :=
  s.asInjected inj fun s =>
    let none' := s.detect 0x0E port 4 12 0 0 inj true 0 t
    match who with
    | .ldm sl _ _ =>
      match (s.job sl).bind fun j => s.live j.handle with
      | some i => (s.detect 0x0E port 4 12 (s.entry i).dom (s.handleOf i) inj true (nb (s.recovers i)) t).faultRequest i 9 0x0E t
      | none => none'
    | .snap _ => none'

def execMemoryResponse (t : Stamp) (port : Fin 16) (write : Bool) (tag : BitVec 8) (data : BitVec 1024) (pois : BitVec 16)
    (err : Bool) (s : State) : Out :=
  let s := s.upTo t 0
  let u := s.tally
  let p := s.port port
  match Tab.get p.out tag.toNat with
  | none => .next s
  | some q =>
    -- one response an MCLK edge (12 R265, R272)
    if !s.alive || decide (q.write ≠ write) || decide (p.resp.map (edgeUp 2) = some (edgeUp 2 u)) then .next s
    else
      let err := err || p.errNext
      let s := s.setPort port { p with
        out := Tab.del p.out tag.toNat, errNext := false, resp := some u,
        nextTag := if p.out.length ≥ 256 then tag.toNat else p.nextTag }
      let n := if write then 0 else if err then 16 else ((List.range 16).filter fun k => bitAt pois k).length
      let s := s.count 12 0x14 n
      let s := match q.who with
        | .ldm sl id inst => s.deliver sl id inst data pois err
        | .snap k => { s with cnt := { s.cnt with snaps := s.cnt.snaps.map fun x =>
            if x.seq = k then { x with left := x.left - 1 } else x } }
      if err then
        .next ((({ s with mem := { s.mem with mserr := (s.mem.mserr + 1) % 65536 } } : State).count 12 0x13 1).errTrip port q.who p.errNext u)
      else .next s

/-! ### Register writes of the memory side (R288, R294, R309) -/

/-- A write of VY_SC_CTL (R309): INDEX, and a flush of its entry when FLUSH is written 1 (R294). -/
def State.writeSc (s : State) (data : Word) : State :=
  let i := fld data 0 16
  let s := { s with mem := { s.mem with scIdx := i } }
  if bitAt data 16 ∧ (s.entry i).state ≠ .free then s.flush i s.tally else s

def execScFlush (t : Stamp) (data : Word) (s : State) : Out := onWrite t s fun s => s.writeSc data

def State.writeD0 (s : State) (data : Word) : State := { s with mem := { s.mem with d0 := data } }

def execRgnD0Write (t : Stamp) (data : Word) (s : State) : Out := onWrite t s fun s => s.writeD0 data

def Region.overlaps (a b : Region) : Bool :=
  a.v && b.v && decide (a.base < b.base + b.size * 65536) && decide (b.base < a.base + a.size * 65536)

/-- Commit the staged D0 with the written D1 (R288). -/
def State.writeD1 (s : State) (data : Word) : State :=
  let k := s.mem.sel
  let old := s.region k
  let r : Region := ⟨bitAt s.mem.d0 0, bitAt s.mem.d0 1, bitAt s.mem.d0 2, fld s.mem.d0 16 24 * 65536, fld data 0 24,
    fld data 32 8, old.gen⟩
  let bad := r.v && (decide (r.size = 0) || decide (r.base + r.size * 65536 > s.mem.win * 2 ^ 30) ||
    s.mem.rgns.any fun p => decide (p.1 ≠ k) && r.overlaps p.2)
  if bad then
    ({ s with mem := { s.mem with viol := (s.mem.viol + 1) % 2 ^ 32 } } : State).ignored 12
  else
    let gen := if (old.v && !r.v) || decide (r.owner ≠ old.owner) then genSucc old.gen else old.gen
    { s with mem := { s.mem with rgns := Tab.set s.mem.rgns k { r with gen := gen } } }

def execRgnD1Write (t : Stamp) (data : Word) (s : State) : Out := onWrite t s fun s => s.writeD1 data

end Sys2Proof.Machine
end

