-- ==== Sys2Proof/Machine/Timetable.lean ====
section
/-! DEFINITION. Timetable.lean: the Timetable (08 R170-R175, R179, R184): slots, eligibility, overruns, bank switches; the
commands SLOT_BOUNDARY, OVERRUN, HOLDLIM, BANK_SWITCH, TT_CLS_SW. -/

namespace Sys2Proof.Machine

/-! ### Slots and rounds (R170, R171) -/

def TtClass.word (c : TtClass) (bank : Bool) (slot : Nat) : Word := Tab.getD c.words (nb bank * 256 + slot) 0
def TtClass.nslot (c : TtClass) (bank : Bool) : Nat := if bank then c.nslot1 else c.nslot0

def slotLen (w : Word) : Nat := 240 * fld w 0 17
def slotElastic (w : Word) : Bool := bitAt w 17
def slotOwnt (w : Word) : Nat := fld w 18 2
def slotOwner (w : Word) : Nat := fld w 20 8

def TtClass.slots (c : TtClass) (bank : Bool) : List Word := (List.range (c.nslot bank)).map fun k => c.word bank k

/-- The round length RL of a bank. -/
def TtClass.round (c : TtClass) (bank : Bool) : Nat := (c.slots bank).foldl (fun a w => a + slotLen w) 0

/-- The slot that holds offset o of the round: its number and its start offset. -/
def findSlot : List Word → Nat → Nat → Nat → Nat × Nat
  | [], k, _, start => (k, start)
  | w :: r, k, o, start => if o < slotLen w then (k, start) else findSlot r (k + 1) (o - slotLen w) (start + slotLen w)

/-- The current slot of a class at tally t and the tally at which it began. -/
def TtClass.current (c : TtClass) (t : Stamp) : Nat × Stamp :=
  let rl := max 1 (c.round c.active)
  let x := findSlot (c.slots c.active) 0 (t % rl) 0
  (x.1, t - t % rl + x.2)

/-! ### Eligibility (R172) -/

inductive Elig where
  | no | filler | owner
deriving DecidableEq, Repr

/-- Does a slot take domain d, of domain class dc, as owner? -/
def slotAdmits (w : Word) (d dc : Nat) : Bool :=
  decide (slotOwnt w = 2) || (decide (slotOwnt w = 0) && decide (slotOwner w = d)) ||
    (decide (slotOwnt w = 1) && decide (slotOwner w = dc))

/-- Eligibility of a job or call of domain d and kind `elastic` in class n at tally t. -/
def State.elig (s : State) (n d : Nat) (elastic : Bool) (t : Stamp) : Elig :=
  let c := s.ttc n
  if !c.av then .owner
  else
    let w := c.word c.active (c.current t).1
    if slotAdmits w d (s.domOf d).dclass then .owner
    else if slotElastic w && elastic then .filler
    else .no

/-! ### Orders of five keys (R167, R173) -/

def keyLt (a b : Nat × Nat × Nat × Nat × Nat) : Bool :=
  decide (a.1 < b.1) || (decide (a.1 = b.1) && (decide (a.2.1 < b.2.1) || (decide (a.2.1 = b.2.1) &&
    (decide (a.2.2.1 < b.2.2.1) || (decide (a.2.2.1 = b.2.2.1) && (decide (a.2.2.2.1 < b.2.2.2.1) ||
      (decide (a.2.2.2.1 = b.2.2.2.1) && decide (a.2.2.2.2 < b.2.2.2.2))))))))

/-- The first element by a key. -/
def firstBy {α : Type} (key : α → Nat × Nat × Nat × Nat × Nat) : List α → Option α
  | [] => none
  | x :: r =>
    match firstBy key r with
    | some y => if keyLt (key y) (key x) then some y else some x
    | none => some x

/-! ### Overruns (R174, R175) -/

/-- The overrun of a command at a boundary: it begins, goes on, or ends because the command is eligible. -/
def overAt (el : Elig) (lateAt : Option Stamp) (start : Stamp) : Option Stamp :=
  match el with
  | .no => some (lateAt.getD start)
  | _ => none

/-- Set the overruns of the running commands of class n, orphaned calls among them, against the slot that starts at `start`. -/
def State.assess (s : State) (n : Nat) (start : Stamp) : State :=
  let call := fun (d : Nat) (el : Bool) (c : Call) =>
    if c.op.cls = n ∧ c.started.isSome then { c with lateAt := overAt (s.elig n d el start) c.lateAt start } else c
  let jobs := s.pil.slots.map fun p => (p.1, { p.2 with job := p.2.job.map fun j =>
    if n = 0 then { j with lateAt := overAt (s.elig 0 j.dom j.elastic start) j.lateAt start }
    else { j with calls := j.calls.map (call j.dom j.elastic) } })
  let orph := if n = 0 then s.dsp.orphans else s.dsp.orphans.map fun o => { o with call := call o.dom o.elastic o.call }
  { s with
    pil := { s.pil with slots := jobs }
    dsp := { s.dsp with orphans := orph } }

/-- The overrun of a slot's job that has reached RUNLIM by t, with the stamp at which it did (R175). -/
def State.overrunDue (s : State) (j : Job) (t : Stamp) : Option Stamp :=
  let due := fun (n : Nat) (o : Option Stamp) => o.bind fun x =>
    let lim := (s.ttc n).runlim
    if lim ≠ 0 ∧ x + 240 * lim ≤ t then some (x + 240 * lim) else none
  match due 0 j.lateAt with
  | some f => some f
  | none => j.calls.findSome? fun c => due c.op.cls c.lateAt

/-- Fault the job of a slot whose overrun has reached RUNLIM. -/
def State.overrunSlot (s : State) (slot : Nat) (t : Stamp) : State :=
  match s.job slot with
  | none => s
  | some j =>
    match s.overrunDue j t with
    | some f => s.jobFault slot 7 0 f
    | none => s

/-- Fault the jobs whose overruns reach RUNLIM by t. -/
def State.overrunAll (s : State) (t : Stamp) : State := (List.range 64).foldl (fun s k => s.overrunSlot k t) s

/-- The stamp at which a pending switch takes effect: the first round start of both banks after the request (R184). DESIGN CHOICE: the
checks are made once, at the request; slot words and NSLOT of the inactive bank written while the switch is pending count for this stamp
and are not checked again (log entry 105). -/
def TtClass.switchAt (c : TtClass) (r : Stamp) : Stamp :=
  let rl := if c.av then max (c.round c.active) (c.round (c.av && !c.active)) else c.round (c.av && !c.active)
  (r / max 1 rl + 1) * rl

/-- Does a bank switch take effect at the boundary u? Its slot 0 is then the new one. -/
def TtClass.switches (c : TtClass) (u : Stamp) : Bool := match c.sw with
  | some r => decide (c.switchAt r = u)
  | none => false

/-- The slot of a class that ends at the boundary u is forfeited where an overrun covers it whole (R175). -/
def State.forfeit (s : State) (n : Nat) : State :=
  let c := s.ttc n
  let us := overUnits s n c.posAt
  if us.isEmpty then s
  else
    let s := s.note 0x8D 0 0 c.posAt [pack 64 [(0, n), (2, nb c.posBank), (3, c.posSlot), (11, us.length)]]
    (s.setTtc n { s.ttc n with forfeits := (c.forfeits + 1) % 2 ^ 32 }).count 3 0x12 1

/-- The boundary at which the current slot began: counts, the RUNLIMs before it, the forfeit of the slot before, the RUNLIMs at it, the
overruns (R171, R174, R175). A boundary is taken once; where a bank switch takes effect, the new bank's slot 0 decides. -/
def State.boundary (s : State) (n : Nat) (t : Stamp) : State :=
  let c := s.ttc n
  if !c.av then s
  else
    let x := c.current t
    if x.2 = c.posAt then s
    else
      let s := (s.count 3 0x11 1).count 3 0x10 (nb (decide (x.1 = 0)))
      let s := (((s.overrunAll (x.2 - 1)).forfeit n).overrunAll x.2)
      let s := s.setTtc n { s.ttc n with posSlot := x.1, posBank := c.active, posAt := x.2 }
      if c.switches x.2 then s else s.assess n x.2

/-- The boundaries of every class that fall at t: an overrun that ends there has covered its slot. -/
def State.boundariesAt (s : State) (t : Stamp) : State :=
  (List.range 4).foldl (fun s n => if ((s.ttc n).current t).2 = t then s.boundary n t else s) s

def execSlotBoundary (t : Stamp) (cls : Fin 4) (s : State) : Out :=
  let s := s.upTo t (kSub 3)
  if !s.running then .next s else .next (s.boundary cls s.tally)

def execOverrun (t : Stamp) (slot : Fin 64) (s : State) : Out :=
  let s := s.upTo t (kSub 3)
  if !s.running then .next s else .next ((s.boundariesAt s.tally).overrunSlot slot s.tally)

/-! ### Deferral (R176, R179) -/

/-- Jobs that the domain holds in slots (R167). -/
def State.jobsOf (s : State) (d : Nat) : Nat :=
  (s.pil.slots.filter fun p => match p.2.job with
    | some j => decide (j.dom = d)
    | none => false).length

def State.underJobmax (s : State) (d : Nat) : Bool :=
  decide ((s.domOf d).jobmax = 0) || decide (s.jobsOf d < (s.domOf d).jobmax)

/-- The domain and kind of a job that waits for a slot. -/
def State.readyJob (s : State) (r : Ready) : Option (Nat × Bool) :=
  match r.frame with
  | some f => (Tab.get s.dsp.frames f).map fun x => (x.job.dom, x.job.elastic)
  | none => (s.inst r.inst).bind fun g => (g.tasks[r.task]?).map fun k => ((s.entry (hIdx g.handle)).dom, k.elastic)

/-- Does an owner-eligible job wait for a job slot? DESIGN CHOICE: a ready job counts as waiting until it is placed, also while a slot is
free (log entry 106). -/
def State.ownerWaits (s : State) (t : Stamp) : Bool :=
  s.dsp.ready.any fun r => match s.readyJob r with
    | some x => decide (s.elig 0 x.1 x.2 t = .owner) && s.underJobmax x.1
    | none => false

/-- Is core c being replaced at the host's wish: it takes no job, and elastic jobs leave it (R317)? -/
def State.coreLeaves (s : State) (c : Nat) : Bool :=
  s.wch.swaps.any fun x => decide (x.kind = 5) && decide (x.num = c) && x.host

/-- Is the job in a slot due for pre-emption at t (R176, R317)? -/
def State.preemptDue (s : State) (slot : Nat) (j : Job) (t : Stamp) : Bool :=
  j.elastic && (decide (s.elig 0 j.dom j.elastic t = .no) ||
    (decide (s.elig 0 j.dom j.elastic t = .filler) && s.ownerWaits t) ||
    s.coreLeaves (slot / 4))

def Job.holds (j : Job) : Bool := !j.sems.isEmpty || j.creds.any fun c => decide (c.2 > 0)

/-- The deferral window of a slot's job ends (R179). -/
def State.holdEnds (s : State) (slot : Nat) (t : Stamp) : State :=
  match s.job slot with
  | none => s
  | some j =>
    match j.holdEnd with
    | none => s
    | some e =>
      if t < e then s
      else if j.holds && s.preemptDue slot j e then s.jobFault slot 8 0 e
      else s.setJob slot (some { j with holdEnd := none, lateAt := if s.preemptDue slot j e then j.lateAt else none })

def execHoldlim (t : Stamp) (slot : Fin 64) (s : State) : Out :=
  let s := s.upTo t (kSub 3)
  if !s.running then .next s else .next (s.holdEnds slot s.tally)

/-! ### Bank switch (R184) -/

/-- The bank that a switch makes active. -/
def TtClass.newBank (c : TtClass) : Bool := c.av && !c.active

/-- Does a switch request pass the checks of R184? -/
def TtClass.switchOk (c : TtClass) : Bool :=
  let b := c.newBank
  let rl := c.round b
  decide (1 ≤ c.nslot b) && decide (c.nslot b ≤ 256) &&
    ((c.slots b).all fun w => decide (slotLen w ≠ 0) && decide (slotOwnt w ≠ 3)) && decide (rl ≤ 24000000) &&
    (!c.av || decide (rl % c.round c.active = 0) || decide (c.round c.active % rl = 0))

/-- A switch request at t: accepted or refused (R184). -/
def State.ttRequest (s : State) (n : Nat) (t : Stamp) : State × Bool :=
  let c := s.ttc n
  if c.switchOk then (s.setTtc n { c with sw := some t, status := 1 }, true)
  else ((s.setTtc n { c with status := 2 }).count 3 0x15 1, false)

/-- NSLOT of the inactive bank; both while no bank is active. -/
def TtClass.setNslots (c : TtClass) (n0 n1 : Nat) : TtClass :=
  if !c.av then { c with nslot0 := n0, nslot1 := n1 }
  else if c.active then { c with nslot0 := n0 }
  else { c with nslot1 := n1 }

/-- A write of VY_TT_CLSn. -/
def State.writeTtc (s : State) (n : Nat) (data : Word) : State :=
  let c := (s.ttc n).setNslots (fld data 8 9) (fld data 17 9)
  let s := s.setTtc n { c with runlim := fld data 32 16 }
  if bitAt data 2 then (s.ttRequest n s.tally).1 else s

def execTtClsSw (t : Stamp) (cls : Fin 4) (data : Word) (s : State) : Out := onWrite t s fun s => s.writeTtc cls data

/-- The new bank becomes active; running commands meet its slot 0 (R174, R184). -/
def State.bankSwitch (s : State) (n : Nat) (u : Stamp) : State :=
  let c := s.ttc n
  let b := c.newBank
  let taken := decide (c.av ∧ c.posAt = u)
  let s := if c.av ∧ ¬ taken then s.boundary n u else s
  let s := s.setTtc n { s.ttc n with active := b, av := true, sw := none, posSlot := 0, posBank := b, posAt := u }
  let s := if c.av then s else (s.count 3 0x11 1).count 3 0x10 1
  ((s.note 0x8E 0 0 u [pack 64 [(0, n), (2, nb b)]]).count 3 0x14 1).assess n u

def execBankSwitch (t : Stamp) (cls : Fin 4) (s : State) : Out :=
  let s := s.upTo t (kSub 3)
  let c := s.ttc cls
  match c.sw with
  | none => .next s
  | some r => if !s.running || decide (s.tally < c.switchAt r) then .next s else .next (s.bankSwitch cls (c.switchAt r))

end Sys2Proof.Machine
end

