-- ==== Sys2Proof/Machine/Text.lean ====
section
/-! DEFINITION. Text.lean: the text tier (04): vocabularies, repair, views, retokenisation, byte patterns, prompt capture; the
commands PROMPT_IN and VIEW_BUILD. -/

namespace Sys2Proof.Machine

/-! ### Vocabularies (R66-R69, R71) -/

def VSlot.none : VSlot := ⟨false, false, 0, 0, 0, 0⟩
def State.vslot (s : State) (n : Nat) : VSlot := (s.txt.vslots[n]?).getD VSlot.none

/-- The bytes of a token in the vocabulary at base; `none` for a token not below N_TOK (R71). -/
def State.tokenBytes (s : State) (base x : Nat) : Option (List Byte) :=
  if x ≥ fld (s.rd64 base) 0 19 then none
  else
    let w := s.rd64 (fld (s.rd64 (base + 16)) 0 40 + 8 * x)
    if bitAt w 40 then some [] else some (s.rd (fld (s.rd64 (base + 24)) 0 40 + fld w 0 32) (fld w 32 8))

/-- May the domain read what the vocabulary at base says of a token (13 R287)? -/
def State.tokenReads (s : State) (d base x : Nat) : Bool :=
  let n := fld (s.rd64 base) 0 19
  let a := fld (s.rd64 (base + 16)) 0 40 + 8 * x
  let w := s.rd64 a
  s.access d base 64 false true && (decide (n ≤ x) || s.access d a 8 false true &&
    (bitAt w 40 || s.access d (fld (s.rd64 (base + 24)) 0 40 + fld w 0 32) (fld w 32 8) false true))

/-! ### Repair (R72, R73) -/

/-- Length of a well-formed sequence that begins with b, and the range of its second byte; 0 where none begins so. -/
def u8Class (b : Nat) : Nat × Nat × Nat :=
  if b ≤ 0x7F then (1, 0, 0)
  else if 0xC2 ≤ b ∧ b ≤ 0xDF then (2, 0x80, 0xBF)
  else if b = 0xE0 then (3, 0xA0, 0xBF)
  else if b = 0xED then (3, 0x80, 0x9F)
  else if 0xE1 ≤ b ∧ b ≤ 0xEF then (3, 0x80, 0xBF)
  else if b = 0xF0 then (4, 0x90, 0xBF)
  else if 0xF1 ≤ b ∧ b ≤ 0xF3 then (4, 0x80, 0xBF)
  else if b = 0xF4 then (4, 0x80, 0x8F)
  else (0, 0, 0)

/-- How many of the following bytes continue the sequence, at most n. -/
def u8Tail : Nat → Nat → Nat → List Nat → Nat
  | 0, _, _, _ => 0
  | _ + 1, _, _, [] => 0
  | n + 1, lo, hi, b :: r => if lo ≤ b ∧ b ≤ hi then 1 + u8Tail n 0x80 0xBF r else 0

structure Repaired (α : Type) where
  out   : List (Byte × α)
  carry : List Byte
  fffd  : Nat
deriving DecidableEq, Repr

/-- Repair by maximal subparts (R72); each byte carries its source. -/
def repair {α : Type} (final : Bool) : Nat → List (Byte × α) → Repaired α
  | 0, _ => ⟨[], [], 0⟩
  | _ + 1, [] => ⟨[], [], 0⟩
  | n + 1, (b, a) :: r =>
    let c := u8Class b.toNat
    let k := u8Tail (c.1 - 1) c.2.1 c.2.2 (r.map fun p => p.1.toNat)
    let bad := fun (x : Repaired α) => (⟨(0xEF, a) :: (0xBF, a) :: (0xBD, a) :: x.out, x.carry, x.fffd + 1⟩ : Repaired α)
    if c.1 = 0 then bad (repair final n r)
    else if k + 1 = c.1 then
      let x := repair final n (r.drop k)
      ⟨(b, a) :: (r.take k ++ x.out), x.carry, x.fffd⟩
    else if k = r.length then
      if final then bad ⟨[], [], 0⟩ else ⟨[], b :: r.map fun p => p.1, 0⟩
    else bad (repair final n (r.drop k))

/-! ### Views (R74, R75) -/

/-- BOUND from the view's sources, for n tokens: computed from the last token down (R74). -/
def boundOf (src : List (Option Nat)) (n : Nat) : List Nat :=
  (List.range n).foldr (fun i acc =>
    let at' := src.findIdx fun x => decide (x = some i)
    (if at' < src.length then at' else acc.headD src.length) :: acc) []

/-- Build the view of a chunk from its tokens (R71-R74). -/
def State.buildView (s : State) (i : Nat) (v : View) (slot : Nat) : State :=
  let e := s.entry i
  let base := (s.vslot (((s.epochOf e).map fun p => p.vocab).getD 0)).base
  let toks := v.toks
  let carry := e.req.atext.utf8
  let bytes := toks.mapIdx fun k x => ((s.tokenBytes base x).getD []).map fun b => (b, some k)
  let bad := (toks.filter fun x => (s.tokenBytes base x).isNone).length
  let inp : List (Byte × Option Nat) := (carry.map fun b => (b, none)) ++ bytes.flatten
  let r : Repaired (Option Nat) := repair v.final (inp.length + 1) inp
  let src := r.out.map fun p => p.2
  let gen := genSucc (Tab.getD s.txt.viewGen slot 0)
  let v' : View := { v with
    gen := gen, bytes := r.out.map fun p => p.1, cin := carry.length, bound := boundOf src toks.length
    src := src, built := true, slot := some slot }
  let s := { s with txt := { s.txt with
    views := s.txt.views.flatMap fun (w : View) =>
      if w.handle = v.handle ∧ w.k = v.k then (if v.gone then [] else [v']) else [w]
    viewGen := Tab.set s.txt.viewGen slot gen
    fffd := (s.txt.fffd + r.fffd) % 2 ^ 48 } }
  let s := s.updReq i fun q => { q with atext := { q.atext with
    utf8 := r.carry, bad := q.atext.bad + bad, fffd := q.atext.fffd + r.fffd } }
  ((((s.count 7 0x10 1).count 7 0x11 r.out.length).count 7 0x12 r.fffd).count 7 0x13 bad).viewWaits

/-- The views that may take a slot: as many of those not built as slots are free, in close order (R75); the first where none is
free. -/
def State.slotViews (s : State) : List View :=
  let used := (s.txt.views.filter fun v => v.slot.isSome).length
  (s.txt.views.filter fun v => !v.built).take (max 1 (1024 - used))

/-- The waiting view that comes first among the eligible ones: a view build is an elastic text-class call of the request's
domain, issued at the chunk's close stamp (08 R173). -/
def State.nextView (s : State) (u : Stamp) : Option View :=
  firstBy (fun (v : View) => (if s.elig 3 v.dom true u = .owner then 0 else 1, 15 - (s.entry (hIdx v.handle)).prio, v.asked,
    hIdx v.handle, v.k)) (s.slotViews.filter fun (v : View) => decide (s.elig 3 v.dom true u ≠ .no))

/-- Does a view build pass the check of 13 R287: its slot, and the vocabulary's words of its tokens? -/
def State.viewOk (s : State) (i : Nat) (v : View) (slot : Nat) : Bool :=
  let e := s.entry i
  let base := (s.vslot (((s.epochOf e).map fun p => p.vocab).getD 0)).base
  s.areaOk (s.txt.viewBase + slot * frameSize) frameSize && v.toks.all fun x => s.tokenReads e.dom base x

/-- VIEW_BUILD (R74, R75): a builder in service finishes the first waiting view; without a free slot the view waits. A slot or a vocabulary
that fails the check of 13 R287 trips the memory port for the request. -/
def execViewBuild (t : Stamp) (builder : Fin 2) (s : State) : Out :=
  let s := s.upTo t (kSub 7)
  if !s.alive || !s.txtEn || !s.mem.en || bitAt s.txt.fenced (20 + builder.val) then .next s
  else
    match s.nextView s.tally with
    | none => .next s
    | some v =>
      match s.freeVSlot, s.live v.handle with
      | none, _ => .next s
      | some _, none => .next (s.dropView v.handle v.k)
      | some n, some i =>
        if s.viewOk i v n then .next (s.buildView i v n)
        else .next (((s.dropView v.handle v.k).viol).memTrip 3 i s.tally)

/-! ### Retokenisation (R69, R76, R77) -/

structure TrieNode where
  next  : List Byte
  label : List Byte
  tok   : Nat
  tv    : Bool
  cbase : Nat
deriving DecidableEq, Repr

/-- A trie node's line (R69). -/
def State.trieNode (s : State) (nodes n : Nat) : TrieNode :=
  let a := nodes + 64 * n
  let w := s.rd64 (a + 48)
  ⟨s.rd a 32, s.rd (a + 33) (memGet s.mem.bytes (a + 32)).toNat, fld w 0 18, bitAt w 18, fld w 19 24⟩

/-- Bit b of a child bitmap. -/
def bitmapAt (m : List Byte) (b : Nat) : Bool := bitAt ((m[b / 8]?).getD 0) (b % 8)

/-- The child that follows byte b (R69). -/
def TrieNode.child (n : TrieNode) (b : Nat) : Option Nat :=
  if bitmapAt n.next b then some (n.cbase + ((List.range b).filter fun c => bitmapAt n.next c).length) else none

/-- Match label bytes: the input left and the bytes taken, or how the walk ends (open or not). -/
def takeLabel : List Byte → List Byte → Nat → Except Bool (List Byte × Nat)
  | [], inp, d => .ok (inp, d)
  | _ :: _, [], _ => .error true
  | l :: r, b :: inp, d => if b = l then takeLabel r inp (d + 1) else .error false

/-- One walk from the root (R76): the best match and whether the walk is open. -/
def State.trieWalk (s : State) (nodes : Nat) : Nat → Nat → List Byte → Nat → Option (Nat × Nat) → Option (Nat × Nat) × Bool
  | 0, _, _, _, best => (best, false)
  | k + 1, n, inp, d, best =>
    let x := s.trieNode nodes n
    match takeLabel x.label inp d with
    | .error o => (best, o)
    | .ok (inp, d) =>
      let best := if x.tv then some (x.tok, d) else best
      match inp with
      | [] => (best, x.next.any fun b => b ≠ 0)
      | b :: r =>
        match x.child b.toNat with
        | none => (best, false)
        | some c => s.trieWalk nodes k c r (d + 1) best

/-- One retokenised item: token, position of its first byte, FALLBACK. -/
structure XItem where
  tok  : Nat
  pos  : Nat
  fall : Bool
deriving DecidableEq, Repr

/-- Length of the unit at the head of the input (R76). -/
def unitLen : List Byte → Nat
  | [] => 0
  | _ :: r => 1 + ((r.take 3).takeWhile fun b => 0x80 ≤ b.toNat ∧ b.toNat ≤ 0xBF).length

/-- Greedy longest match over the whole input (R76): the items and the carry. -/
def State.xlateRun (s : State) (base : Nat) (final : Bool) : Nat → List Byte → Nat → List XItem × List Byte
  | 0, _, _ => ([], [])
  | _ + 1, [], _ => ([], [])
  | k + 1, b :: r, pos =>
    let inp := b :: r
    let w := s.trieWalk (fld (s.rd64 (base + 32)) 0 40) 129 0 inp 0 none
    if w.2 && !final then ([], inp)
    else
      match w.1 with
      | some m =>
        let n := max 1 m.2
        let x := s.xlateRun base final k (inp.drop n) (pos + n)
        (⟨m.1, pos, false⟩ :: x.1, x.2)
      | none =>
        let n := unitLen inp
        let w1 := s.rd64 (base + 8)
        let fb := if bitAt (s.rd64 base) 43 then
            (inp.take n).mapIdx fun j c => (⟨fld w1 0 18 + c.toNat, pos + j, true⟩ : XItem)
          else [⟨fld w1 18 18, pos, true⟩]
        let x := s.xlateRun base final k (inp.drop n) (pos + n)
        (fb ++ x.1, x.2)

/-- The 32-bit entry of R77; `src` gives the token of an input position, `none` where it is carried. -/
def xEntry (prompt : Bool) (src : Nat → Option Nat) (x : XItem) : BitVec 32 :=
  if prompt then pack 32 [(0, x.tok), (27, nb x.fall)]
  else match src x.pos with
    | some k => pack 32 [(0, x.tok), (18, k), (27, nb x.fall)]
    | none => pack 32 [(0, x.tok), (26, 1), (27, nb x.fall)]

/-! ### Byte patterns (R78, R79) -/

/-- Run a pattern set over a view (R79): the records as (match id, back, end), and the state reached. -/
def State.matchRun (s : State) (a : Nat) : List Byte → Nat → Nat → List (Nat × Nat × Nat) × Nat
  | [], _, st => ([], st)
  | b :: r, o, st =>
    let ncls := fld (s.rd64 a) 24 9
    let w := s.rd32 (fld (s.rd64 (a + 8)) 0 40 + 4 * (st * ncls + (memGet s.mem.bytes (a + 64 + b.toNat)).toNat))
    let nx := fld w 0 24
    let x := s.matchRun a r (o + 1) nx
    if bitAt w 24 then
      let acc := s.rd64 (fld (s.rd64 (a + 16)) 0 40 + 8 * nx)
      ((fld acc 0 16, fld acc 16 8, o) :: x.1, x.2)
    else x

/-- The 64-bit match record of R79. -/
def matchRecord (prompt : Bool) (cin : Nat) (src : List (Option Nat)) (m : Nat × Nat × Nat) : Word :=
  let back := m.2.1
  let en := m.2.2
  let tok := fun o => ((src[o]?).getD none).getD 0
  if prompt then pack 64 [(0, m.1), (16, back), (24, en)]
  else
    let clip := decide (back = 0) || decide (en + 1 < back + cin) || decide (en < cin)
    pack 64 [(0, m.1), (16, back), (24, en), (44, if clip then 0 else tok (en + 1 - back)), (52, tok en), (60, nb clip)]

/-! ### Prompt capture (R82-R84, R14, R141, R159) -/

def piHandle (w : BitVec 576) : Handle := BitVec.ofNat 32 (fld w 0 32)
def piForm (w : BitVec 576) : Bool := bitAt w 32
def piCount (w : BitVec 576) : Nat := fld w 33 7
def piLast (w : BitVec 576) : Bool := bitAt w 40

/-- A discard under R14 or R83: counted and reported. -/
def State.promptDrop (s : State) (h : Handle) (reason dom : Nat) (t : Stamp) : State :=
  (({ s with txt := { s.txt with pdrop := (s.txt.pdrop + 1) % 2 ^ 32 } } : State).count 7 0x19 1).note 0x89 dom h t
    [BitVec.ofNat 64 reason]

/-- The forms a prompt may have: the domain's, latched at its first transfer (R87). -/
def State.promptForms (s : State) (e : Entry) : Bool × Bool :=
  if e.state = .admitted then ((s.domOf e.dom).formB, (s.domOf e.dom).formT) else e.req.pforms

/-- The REASON of R83, if the transfer is discarded. -/
def State.promptReason (s : State) (w : BitVec 576) : Option Nat :=
  match s.live (piHandle w) with
  | none => some 0
  | some i =>
    let e := s.entry i
    let fs := s.promptForms e
    if e.state = .prompt ∧ e.plast then some 3
    else if e.state ≠ .admitted ∧ e.state ≠ .prompt then some 4
    else if piCount w = 0 ∨ piCount w > (if piForm w then 28 else 64) then some 5
    else if !(if piForm w then fs.2 else fs.1) then some 2
    else if e.req.pform ≠ none ∧ e.req.pform ≠ some (piForm w) then some 1
    else none

/-- The first accepted transfer opens the prompt (R138, R141, R159). -/
def State.openPrompt (s : State) (i : Nat) (form : Bool) (t : Stamp) : State :=
  let e := s.entry i
  let d := s.domOf e.dom
  let s := s.setEntry i { e with
    state := .prompt
    pstamp := t
    pdl := if e.pdl = 0 then d.ramp.deadline else e.pdl
    req := { e.req with pwin := true, pform := some form, pforms := (d.formB, d.formT), pset := d.ramp, pmax := d.pmax } }
  match (s.epochOf e).bind fun p => p.pgraph with
  | some g => s.trigger ⟨s.handleOf i, g, false, 0, none, 0, false, 0, false, wendWord (if d.ramp.passthru then none else some (s.entry i).pend'), t⟩
  | none => s

/-- The view limit of R84. -/
def State.promptLimit (s : State) (i : Nat) : Nat :=
  let e := s.entry i
  min (65536 * e.req.pmax) (areaSize (areaPages (s.runs e.plist e.npage) 1 0))

/-- An accepted transfer: detokenised, repaired and appended, or discarded over the limit (R83, R84). A vocabulary that fails the check of
13 R287 trips the memory port, and nothing is appended. DESIGN CHOICE: an epoch without PVOCAB detokenises with slot 0 (log entry 97), and
where the transfer with LAST is itself discarded the carried bytes stay, without U+FFFD (log entry 98). -/
def State.appendPrompt (s : State) (i : Nat) (w : BitVec 576) (t : Stamp) : State :=
  let e := s.entry i
  let h := s.handleOf i
  let base := (s.vslot ((((s.epochOf e).bind fun p => p.pvocab)).getD 0)).base
  let toks := (List.range (piCount w)).map fun k => fld w (64 + 18 * k) 18
  let raw := if piForm w then toks.flatMap fun x => (s.tokenBytes base x).getD []
    else (List.range (piCount w)).map fun k => BitVec.ofNat 8 (fld w (64 + 8 * k) 8)
  let bad := if piForm w then (toks.filter fun x => (s.tokenBytes base x).isNone).length else 0
  let inp := (e.req.ptext.utf8 ++ raw).map fun b => (b, ())
  let r : Repaired Unit := repair (piLast w) (inp.length + 1) inp
  let s := if piForm w && !e.req.oversize && !(toks.all fun x => s.tokenReads e.dom base x) then s.viol.memTrip 3 i t
    else if e.req.oversize ∨ e.req.pview + r.out.length > s.promptLimit i then
      let s := ({ s with txt := { s.txt with pdrop := (s.txt.pdrop + 1) % 2 ^ 32 } } : State).count 7 0x19 1
      let s := if e.req.oversize then s else s.note 0x8A e.dom h t [BitVec.ofNat 64 e.req.pview]
      s.updReq i fun q => { q with oversize := true }
    else
      let s := ({ s with txt := { s.txt with fffd := (s.txt.fffd + r.fffd) % 2 ^ 48 } } : State).updReq i fun x =>
        { x with
          pview := x.pview + r.out.length
          ptext := { x.ptext with utf8 := r.carry, bad := x.ptext.bad + bad, fffd := x.ptext.fffd + r.fffd } }
      ((s.count 7 0x12 r.fffd).count 7 0x13 bad).areaWrite i 1 e.req.pview (r.out.map fun p => p.1) t
  if piLast w then
    let s := s.updEntry i fun e => { e with plast := true }
    if ((s.epochOf e).bind fun p => p.pgraph).isNone then s.pushDue ⟨t, h, .prompt⟩ else s
  else s

/-- Has the channel transferred a word at this edge of CK_M already (12 R265, R269)? -/
def State.pinTaken (s : State) : Bool := match s.txt.lastPin with
  | some u => decide (u / 2 = s.tally / 2)
  | none => false

def execPromptIn (t : Stamp) (w : BitVec 576) (s : State) : Out :=
  let s := s.upTo t 0
  let u := s.tally
  if !s.alive || !s.pinEn || s.pinTaken then .next s
  else
    let s := ({ s with txt := { s.txt with lastPin := some u } } : State).count 7 0x18 1
    match s.promptReason w with
    | some r =>
      let dom := match s.live (piHandle w) with
        | some i => (s.entry i).dom
        | none => 0
      .next (s.promptDrop (piHandle w) r dom u)
    | none =>
      let i := hIdx (piHandle w)
      let s := if (s.entry i).state = .admitted then s.openPrompt i (piForm w) u else s
      .next (s.appendPrompt i w u)

end Sys2Proof.Machine
end

