-- ==== Sys2Proof/Machine/RampEvents.lean ====
section
/-! DEFINITION. RampEvents.lean: the timed events of the Ramp (03 R44, R52, R54, R55, R59, R64): CLOSE_TIME, DEADLINE_EXPIRY,
PROMPT_DEADLINE_EXPIRY, RELEASE, PEAK_CLR. An event that is not due when its command comes has no effect (log entry 6). -/

namespace Sys2Proof.Machine

/-- CLOSE_TIME (R44): a token whose T10 is the close stamp is still inside the chunk. -/
def execCloseTime (t : Stamp) (idx : BitVec 16) (s : State) : Out :=
  let s := s.upTo t (kRamp 4)
  if !s.running then .next s else .next (s.closeDue idx.toNat s.tally)

/-- DEADLINE_EXPIRY (R54): the expiry precedes the other Ramp events of its stamp (R48). -/
def execDeadlineExpiry (t : Stamp) (idx : BitVec 16) (s : State) : Out :=
  let s := s.upTo t (kRamp 1)
  if !s.running then .next s else .next (s.expire idx.toNat s.tally)

def execPromptDeadlineExpiry (t : Stamp) (idx : BitVec 16) (s : State) : Out :=
  let s := s.upTo t (kRamp 1)
  if !s.running then .next s else .next (s.promptDue idx.toNat s.tally)

/-- The first held chunk is released if its release tally has come by t (R52). -/
def State.releaseDue (s : State) (i : Nat) (t : Stamp) : State :=
  match s.releaseAt i, (s.entry i).req.chunks with
  | some r, c :: _ => if r ≤ t then s.releaseChunk i c r else s
  | _, _ => s

def execRelease (t : Stamp) (idx : BitVec 16) (s : State) : Out :=
  let s := s.upTo t (kRamp 5)
  if !s.running then .next s else .next (s.releaseDue idx.toNat s.tally)

/-- A write of VY_RAMP_CTL (R64): EN, LEVEL_IE, and PEAK set to the present use when PEAK_CLR is written 1. -/
def State.writeRampCtl (s : State) (data : Word) : State :=
  s.gated [(s.ramp.en, bitAt data 0)] fun s =>
    let s := s.lagged .ramp s.ramp.en (bitAt data 0) (edgeG s.tally)
    let s := { s with ramp := { s.ramp with en := bitAt data 0, levelIE := bitAt data 1 } }
    if bitAt data 2 then { s with ramp := { s.ramp with peak := s.holdUse } } else s

def execPeakClr (t : Stamp) (data : Word) (s : State) : Out := onWrite t s fun s => s.writeRampCtl data

end Sys2Proof.Machine
end

