-- ==== Sys2Proof/Machine/Accept.lean ====
section
/-! DEFINITION. Accept.lean: the Landing's two queues and the acceptance of commands (11 R239-R249, R257, R260): LND_CQPUSH,
LND_NQPOP, CMD_GAP, BAD_OP, LND_FLUSH_CQ, LND_FLUSH_NQ, FENCE, ECHO, LOG_ARM, LOG_ARM_WINDOW_END. -/

namespace Sys2Proof.Machine

/-! ### The command queue (R241, R244, R246) -/

def CqCell.ends : CqCell → Bool
  | .cell _ fin _ => fin
  | .gap _ => true

/-- The queue without the cells of the message that is still being pushed. -/
def wholeCq (q : List CqCell) : List CqCell := (q.reverse.dropWhile fun c => !c.ends).reverse
/-- The cells of the message that is still being pushed. -/
def openCq (q : List CqCell) : List CqCell := (q.reverse.takeWhile fun c => !c.ends).reverse

/-- One more dropped message in the gap marker at the tail (R244). -/
def addGap (q : List CqCell) : List CqCell :=
  match q.getLast? with
  | some (.gap n) => q.dropLast ++ [.gap (n + 1)]
  | _ => q ++ [.gap 1]

/-- A rise of the use from below the level to it raises the interrupt (R245). -/
def cqLevelIrq (before : Nat) (s : State) : State :=
  if before < s.lnd.cqLevel ∧ s.lnd.cqLevel ≤ s.lnd.cq.length ∧ s.cqIE then s.irq s.tally else s

/-- A push of the buffered cell (R241), or the drop of its message when 511 cells are in use (R244). -/
def State.pushCell (s : State) (fin : Bool) : State :=
  let s := s.count 1 0x16 1
  if s.lnd.cqSkip then { s with lnd := { s.lnd with cqSkip := !fin } }
  else
    let used := s.lnd.cq.length
    if used ≥ 511 then
      ({ s with lnd := { s.lnd with
        cq := addGap (wholeCq s.lnd.cq)
        cqSkip := !fin
        cmdDrop := (s.lnd.cmdDrop + 1) % 65536 } } : State).count 1 0x14 1
    else cqLevelIrq used { s with lnd := { s.lnd with cq := s.lnd.cq ++ [.cell s.lnd.cqbuf fin 0] } }

def execLndCqpush (t : Stamp) (data : Word) (s : State) : Out := onWrite t s fun s => s.pushCell (bitAt data 0)

def CqCell.isGap : CqCell → Bool
  | .gap _ => true
  | .cell _ _ _ => false

/-- Discard every whole message of the command queue; gap markers and an unfinished message stay (R246). -/
def State.flushCq (s : State) : State :=
  { s with lnd := { s.lnd with cq := ((wholeCq s.lnd.cq).filter fun c => c.isGap) ++ openCq s.lnd.cq } }

/-! ### The notice queue (R243, R246) -/

/-- Discard every whole message of the notice queue, or those behind the message that is popped in part (R246). -/
def State.flushNq (s : State) : State :=
  if s.lnd.nqMid then
    { s with lnd := { s.lnd with
      nqFlush := some ((s.lnd.nq.dropWhile fun c => !c.fin).length - 1) } }
  else { s with lnd := { s.lnd with nq := s.lnd.nq.filter fun c => c.gap } }

/-- The tags of VY_LND_NQPOP. -/
def NqCell.tags (c : NqCell) : Word := pack 64 [(0, 1), (1, nb c.fin), (2, nb c.bad), (3, nb c.first)]

/-- Take the head cell; at the boundary of its message a waiting flush takes effect (R243, R246). -/
def State.popCell (s : State) : State × Word :=
  match s.lnd.nq with
  | [] => (s.count 1 0x18 1, 0)
  | c :: r =>
    let l := { s.lnd with nq := r, nqbuf := c.words, nqMid := !c.fin }
    let l := match l.nqFlush with
      | some n => if c.fin then { l with nqFlush := none, nq := ((r.take n).filter fun c => c.gap) ++ r.drop n } else l
      | none => l
    ((({ s with lnd := l } : State).count 1 0x17 1).count 1 0x19 (nb c.bad), c.tags)

def execLndNqpop (t : Stamp) (s : State) : Out :=
  let s := s.upTo t 0
  if !s.alive || !s.portFree then .next s
  else
    let q := s.popCell
    .next (q.1.respond q.2)

/-- A write of VY_LND_FLUSH. -/
def State.writeFlush (s : State) (data : Word) : State :=
  let s := if bitAt data 0 then s.flushCq else s
  if bitAt data 1 then s.flushNq else s

def execLndFlushCq (t : Stamp) (data : Word) (s : State) : Out := onWrite t s fun s => s.writeFlush data

def execLndFlushNq (t : Stamp) (data : Word) (s : State) : Out := onWrite t s fun s => s.writeFlush data

/-! ### Acceptance (R242) -/

/-- A message as taken from the queue: its cells with the parity findings of their words. -/
abbrev Msg := List (CellWords × BitVec 8)

/-- The whole message at the head of the command queue and what follows it. -/
def headMsg : List CqCell → Option (Msg × List CqCell)
  | [] => none
  | .gap _ :: _ => none
  | .cell w fin bad :: r =>
    if fin then some ([(w, bad)], r)
    else match headMsg r with
      | some x => some ((w, bad) :: x.1, x.2)
      | none => none

/-- Word n of a message. -/
def Msg.word (m : Msg) (n : Nat) : Word := ((m[n / 8]?).bind fun c => c.1[n % 8]?).getD 0

/-- The opcodes that are defined (R249). -/
def cmdOps : List Nat :=
  [0x01, 0x02, 0x10, 0x11, 0x12, 0x13, 0x14, 0x15, 0x20, 0x21, 0x22, 0x23, 0x24, 0x30, 0x31, 0x32, 0x33, 0x34, 0x35, 0x36]

/-- What the decoder finds in an accepted message, in the order of R242. -/
inductive Verdict242 where
  | misroute | poison | frame | badOp | command (op : Nat)
deriving DecidableEq, Repr

def State.judgeMsg (s : State) (m : Msg) : Verdict242 :=
  let w := m.word 0
  if fld w 10 6 ≠ s.clk.blkNum then .misroute
  else if m.any fun c => c.2 ≠ 0 then .poison
  else if fld w 8 2 ≠ 0 ∨ m.length ≠ 1 ∨ fld w 24 4 ≠ 0 ∨ fld w 28 4 ≠ 0 ∨ fld w 56 8 ≠ 0 then .frame
  else if cmdOps.contains (fld w 0 8) then .command (fld w 0 8)
  else .badOp

/-- May the decoder accept a message now (R242)? -/
def State.accepts (s : State) : Bool := s.alive && s.lndEn && s.portFree && decide (s.lnd.opens.length < 512)

/-- Take the message off the queue, and reserve its completion under the given header. -/
def State.begin (s : State) (rest : List CqCell) (op tag dom : Nat) (args : List Nat) : State :=
  ({ s with lnd := { s.lnd with
    cq := rest
    opens := s.lnd.opens ++ [⟨s.lnd.nextId, op, tag, dom, s.tally, args, 0⟩]
    nextId := s.lnd.nextId + 1 } } : State).takePort.count 1 0x10 1

/-- The command at hand: its id, its words and its DOM. -/
structure Cmd where
  id    : Nat
  dom   : Nat
  words : CellWords
deriving DecidableEq, Repr

def Cmd.word (c : Cmd) (n : Nat) : Word := (c.words[n]?).getD 0

/-- Accept the command with opcode `op` at the head of the queue and apply f; a command that requires DOM 0 and carries another
completes with PRIV (R242, R249). Where `wait` holds, its unit waits for node memory, and the command is not taken (13 R309). -/
def onCommandWhen (t : Stamp) (op : Nat) (zero : Bool) (wait : State → Cmd → Bool) (s : State) (f : State → Cmd → State) : Out :=
  let s := s.upTo t 0
  match headMsg s.lnd.cq with
  | none => .next s
  | some x =>
    if !s.accepts || decide (s.judgeMsg x.1 ≠ .command op) then .next s
    else
      let w := x.1.word 0
      let c : Cmd := ⟨s.lnd.nextId, fld w 16 8, (x.1.head?.map fun y => y.1).getD []⟩
      let priv := decide (zero = true) && decide (c.dom ≠ 0)
      if !priv && wait s c then .next s
      else
        let s := s.begin x.2 op (fld w 40 16) c.dom []
        if priv then .next (s.complete c.id stPRIV []) else .next (f s c)

/-- A command that waits for nothing. -/
def onCommand (t : Stamp) (op : Nat) (zero : Bool) (s : State) (f : State → Cmd → State) : Out :=
  onCommandWhen t op zero (fun _ _ => false) s f

/-- BAD_OP (R242): a message that is no command of R249 is discarded as misrouted or answered with POISON, FRAME or BAD_OP. -/
def State.rejectMsg (s : State) (m : Msg) (rest : List CqCell) : State :=
  let w := m.word 0
  let sound := !bitAt (((m.head?).map fun c => c.2).getD 0) 0
  let id := s.lnd.nextId
  match s.judgeMsg m with
  | .misroute =>
    (({ s with lnd := { s.lnd with cq := rest, misroute := (s.lnd.misroute + 1) % 65536 } } : State).takePort.count 1 0x10 1).count
      1 0x15 1
  | .poison => (s.begin rest (if sound then fld w 0 8 else 0) (if sound then fld w 40 16 else 0)
      (if sound then fld w 16 8 else 0) []).complete id stPOISON []
  | .frame => (s.begin rest (fld w 0 8) (fld w 40 16) (fld w 16 8) []).complete id stFRAME []
  | .badOp => (s.begin rest (fld w 0 8) (fld w 40 16) (fld w 16 8) []).complete id stBAD_OP []
  | .command _ => s

def execBadOp (t : Stamp) (s : State) : Out :=
  let s := s.upTo t 0
  match headMsg s.lnd.cq with
  | none => .next s
  | some x => if !s.accepts then .next s else .next (s.rejectMsg x.1 x.2)

/-- CMD_GAP (R244): the marker at the head is removed and reported, whatever the number of completions outstanding. -/
def execCmdGap (t : Stamp) (s : State) : Out :=
  let s := s.upTo t 0
  match s.lnd.cq with
  | .gap n :: r =>
    if !s.alive || !s.lndEn || !s.portFree then .next s
    else .next (({ s with lnd := { s.lnd with cq := r } } : State).takePort.note 0x8F 0 0 s.tally [BitVec.ofNat 64 n])
  | _ => .next s

/-! ### FENCE, ECHO, LOG_ARM (R249, R257, R260) -/

/-- FENCE (R257, R12): the notices of events stamped before it that a build holds back go ahead of it (log entry 80); its completion waits
while a SLOT_FORFEIT of an earlier stamp may still come (log entry 89). -/
def execFence (t : Stamp) (s : State) : Out :=
  onCommand t 0x01 false s fun s c =>
    (s.man.entries.foldl (fun s p => s.letGo p.1 0 fun n => decide (n.stamp < s.tally)) s).post ⟨s.tally, .fence c.id⟩

def execEcho (t : Stamp) (s : State) : Out :=
  onCommand t 0x02 false s fun s c => s.complete c.id stOK ((c.words.drop 3).take 5)

/-- The erase window of the last LOG_ARM (R260). -/
def eraseWindow : Nat := 2400000000

/-- LOG_ARM (R260): a fresh NONCE and a new window. -/
def State.logArm (s : State) : State :=
  ({ s with lnd := { s.lnd with nonce := some (Config.nonce s.fresh), armAt := s.tally } } : State).draw

def execLogArm (t : Stamp) (s : State) : Out :=
  onCommand t 0x35 true s fun s c => s.logArm.complete c.id stOK [(Config.nonce s.fresh).setWidth 64]

/-- Is the window open at t (R260, VY_LND_STAT.ARMED)? -/
def State.eraseArmed (s : State) (t : Stamp) : Bool := s.lnd.nonce.isSome && decide (t < s.lnd.armAt + eraseWindow)

def execLogArmWindowEnd (t : Stamp) (s : State) : Out :=
  let s := s.upTo t (kSub 1)
  if s.running && s.lnd.nonce.isSome && decide (s.lnd.armAt + eraseWindow ≤ s.tally) then
    .next { s with lnd := { s.lnd with nonce := none } }
  else .next s

end Sys2Proof.Machine
end

