-- ==== Sys2Proof/Machine/Cache.lean ====
section
/-! DEFINITION. Cache.lean: the directories of the weight cache, the tree store and the plan cache (05 R109; 06 R132): look-ups by
address, owner domain and image generation, fills, and replacement least recently used first. A directory lists its lines with the
one used longest ago first; what a line holds is what node memory holds, since a line of another owner or generation is never hit. -/

namespace Sys2Proof.Machine

/-- The lines of `size` bytes that arrays of (address, bytes) touch, in the order of first use. -/
def linesBy (size : Nat) (l : List (Nat × Nat)) : List Nat :=
  (l.flatMap fun x => if x.2 = 0 then []
    else (List.range ((x.1 + x.2 - 1) / size - x.1 / size + 1)).map fun k => x.1 / size + k).eraseDups

/-- The line that makes room: the first one that is not pinned. -/
def dropLru : List CLine → List CLine
  | [] => []
  | l :: r => if l.pinned then l :: dropLru r else r

/-- A look-up of a line: a hit makes it the latest used; a miss fills it, over a line of the same address that carries another tag, or
in place of the line used longest ago. Where every line is pinned the line is streamed and not kept. -/
def touchLine (cap owner gen : Nat) (pin : Bool) (c : List CLine) (a : Nat) : List CLine :=
  let same := fun (l : CLine) => decide (l.addr = a) && decide (l.owner = owner) && decide (l.gen = gen)
  let keep := c.filter fun l => !(same l) && (decide (l.addr ≠ a) || l.pinned)
  let pin' := pin || c.any fun l => same l && l.pinned
  let c' := if keep.length ≥ cap then dropLru keep else keep
  if c'.length ≥ cap then c' else c' ++ [⟨a, owner, gen, pin'⟩]

def touchLines (cap owner gen : Nat) (pin : Bool) (c : List CLine) (as : List Nat) : List CLine :=
  as.foldl (touchLine cap owner gen pin) c

/-- The look-ups of a call that miss. -/
def missLines (cap owner gen : Nat) (c : List CLine) (as : List Nat) : Nat :=
  (as.foldl (fun (q : Nat × List CLine) a =>
    let hit := q.2.any fun l => decide (l.addr = a) && decide (l.owner = owner) && decide (l.gen = gen)
    (if hit then q.1 else q.1 + 1, touchLine cap owner gen false q.2 a)) (0, c)).1

/-- Lines that are pinned. -/
def pinned (l : List CLine) : Nat := (l.filter fun c => c.pinned).length

end Sys2Proof.Machine
end

