-- ==== Sys2Proof/Machine/Float32.lean ====
section
/-! DEFINITION. Float32.lean: the binary32 arithmetic of 05 R95, R98-R104 and 06 R115 (used by 10 R214, R215): exact values as
sign, integer significand and binary exponent, rounded once to nearest, ties to even. -/

namespace Sys2Proof.Machine

def qnan : F32 := 0x7FC00000#32
def fInf (neg : Bool) : F32 := if neg then 0xFF800000#32 else 0x7F800000#32
def fOne : F32 := 0x3F800000#32

/-- A value: NaN, an infinity, or (-1)^neg * m * 2^e exactly. -/
inductive FV where
  | nan
  | inf (neg : Bool)
  | fin (neg : Bool) (m : Nat) (e : Int)
deriving DecidableEq, Repr

def fNeg (x : F32) : Bool := bitAt x 31

/-- The value of a bit pattern; subnormals as they are (R99). -/
def fVal (x : F32) : FV :=
  let ex := fld x 23 8
  let fr := fld x 0 23
  if ex = 255 then (if fr = 0 then .inf (fNeg x) else .nan)
  else if ex = 0 then .fin (fNeg x) fr (-149)
  else .fin (fNeg x) (fr + 2 ^ 23) ((ex : Int) - 150)

/-- Bits of a natural number. -/
def bitLen (n : Nat) : Nat := if n = 0 then 0 else Nat.log2 n + 1

/-- rne_shift of R95: z / 2^s to nearest, ties to even. -/
def rneShift (z s : Nat) : Nat :=
  if s > bitLen z + 1 then 0
  else
    let q := z / 2 ^ s
    let r := z % 2 ^ s
    if s = 0 then z
    else if r > 2 ^ (s - 1) ∨ (r = 2 ^ (s - 1) ∧ q % 2 = 1) then q + 1 else q

/-- z / n to nearest, ties to even. -/
def rneDiv (z n : Nat) : Nat :=
  let q := z / n
  let r := z % n
  if 2 * r > n ∨ (2 * r = n ∧ q % 2 = 1) then q + 1 else q

/-- Round m * 2^e to binary32 (R99): gradual underflow, overflow to infinity. -/
def fRound (neg : Bool) (m : Nat) (e : Int) : F32 :=
  let sg : Nat := if neg then 2 ^ 31 else 0
  if m = 0 then BitVec.ofNat 32 sg
  else
    let b := bitLen m
    if (b : Int) + e > 129 then fInf neg
    else
      let q := max (e + b - 24) (-149)
      let s := q - e
      let mag := if s ≤ 0 then m * 2 ^ (-s).toNat else rneShift m s.toNat
      let bits := (q + 149).toNat * 2 ^ 23 + mag
      if bits ≥ 255 * 2 ^ 23 then fInf neg else BitVec.ofNat 32 (sg + bits)

/-- The signed integer of a value over 2^e, for e at or below its exponent. -/
def scaled (neg : Bool) (m : Nat) (ex e : Int) : Int :=
  let v : Int := m * 2 ^ (ex - e).toNat
  if neg then -v else v

/-! ### Operations (R99) -/

def fAddV (a b : FV) : F32 :=
  match a, b with
  | .nan, _ => qnan
  | _, .nan => qnan
  | .inf x, .inf y => if x = y then fInf x else qnan
  | .inf x, _ => fInf x
  | _, .inf y => fInf y
  | .fin x m e, .fin y n f =>
    let g := min e f
    let v := scaled x m e g + scaled y n f g
    if v = 0 then (if x ∧ y then 0x80000000#32 else 0#32) else fRound (decide (v < 0)) v.natAbs g

def fvNeg : FV → FV
  | .nan => .nan
  | .inf x => .inf (!x)
  | .fin x m e => .fin (!x) m e

def fMulV (a b : FV) : F32 :=
  match a, b with
  | .nan, _ => qnan
  | _, .nan => qnan
  | .inf x, .inf y => fInf (x != y)
  | .inf x, .fin y n _ => if n = 0 then qnan else fInf (x != y)
  | .fin x m _, .inf y => if m = 0 then qnan else fInf (x != y)
  | .fin x m e, .fin y n f => fRound (x != y) (m * n) (e + f)

def fDivV (a b : FV) : F32 :=
  match a, b with
  | .nan, _ => qnan
  | _, .nan => qnan
  | .inf _, .inf _ => qnan
  | .inf x, .fin y _ _ => fInf (x != y)
  | .fin x _ _, .inf y => fRound (x != y) 0 0
  | .fin x m e, .fin y n f =>
    if n = 0 then (if m = 0 then qnan else fInf (x != y))
    else
      let z := m * 2 ^ 60
      -- one sticky bit below the quotient keeps the rounding exact
      fRound (x != y) (2 * (z / n) + nb (decide (z % n ≠ 0))) (e - f - 61)

/-- Integer square root, by bits from the top. -/
def isqrt (n : Nat) : Nat :=
  (List.range (bitLen n / 2 + 1)).foldr (fun i r => let c := r + 2 ^ i; if c * c ≤ n then c else r) 0

def fSqrtV : FV → F32
  | .nan => qnan
  | .inf true => qnan
  | .inf false => fInf false
  | .fin x m e =>
    if m = 0 then fRound x 0 0
    else if x then qnan
    else
      let odd := decide (e % 2 ≠ 0)
      let z := (if odd then 2 * m else m) * 2 ^ 60
      let e' := (if odd then e - 1 else e) - 60
      let r := isqrt z
      fRound false (2 * r + nb (decide (r * r ≠ z))) (e' / 2 - 1)

def fadd (a b : F32) : F32 := fAddV (fVal a) (fVal b)
def fsub (a b : F32) : F32 := fAddV (fVal a) (fvNeg (fVal b))
def fmul (a b : F32) : F32 := fMulV (fVal a) (fVal b)
def fdiv (a b : F32) : F32 := fDivV (fVal a) (fVal b)
def fsqrt (a : F32) : F32 := fSqrtV (fVal a)

def isNan (a : F32) : Bool := decide (fVal a = .nan)
def isFinite (a : F32) : Bool := decide (fld a 23 8 ≠ 255)

/-- ord of R115. -/
def ordKey (w : F32) : Nat :=
  if w = 0x80000000#32 then 0x80000000
  else if fNeg w then (~~~w).toNat else (w ^^^ 0x80000000#32).toNat

/-- An integer converted to binary32. -/
def ofInt (v : Int) : F32 := fRound (decide (v < 0)) v.natAbs 0

/-- Truncation to a signed 64-bit integer (10 R214 fcvtsi). -/
def toInt64 (x : F32) : Int :=
  match fVal x with
  | .nan => 0
  | .inf true => -(2 ^ 63)
  | .inf false => 2 ^ 63 - 1
  | .fin neg m e =>
    let v : Nat := if e ≥ 0 then m * 2 ^ e.toNat else m / 2 ^ (-e).toNat
    if neg then (if v ≥ 2 ^ 63 then -(2 ^ 63) else -(v : Int)) else (if v ≥ 2 ^ 63 then 2 ^ 63 - 1 else (v : Int))

/-! ### Exact sums (R100) -/

def fvMul (a b : FV) : FV :=
  match a, b with
  | .nan, _ => .nan
  | _, .nan => .nan
  | .inf x, .inf y => .inf (x != y)
  | .inf x, .fin y n _ => if n = 0 then .nan else .inf (x != y)
  | .fin x m _, .inf y => if m = 0 then .nan else .inf (x != y)
  | .fin x m e, .fin y n f => .fin (x != y) (m * n) (e + f)

def fvAdd (a b : FV) : FV :=
  match a, b with
  | .nan, _ => .nan
  | _, .nan => .nan
  | .inf x, .inf y => if x = y then .inf x else .nan
  | .inf x, _ => .inf x
  | _, .inf y => .inf y
  | .fin x m e, .fin y n f =>
    let g := min e f
    let v := scaled x m e g + scaled y n f g
    .fin (decide (v < 0)) v.natAbs g

def fvRound : FV → F32
  | .nan => qnan
  | .inf x => fInf x
  | .fin x m e => fRound x m e

/-- xsum: the exact sum, rounded once. -/
def xsum (ts : List FV) : F32 := fvRound (ts.foldl fvAdd (.fin false 0 0))

/-! ### exp and the functions built on it (R101, R102) -/

def expTable : List Nat :=
  [0x3f800000, 0x3f8164d2, 0x3f82cd87, 0x3f843a29, 0x3f85aac3, 0x3f871f62, 0x3f88980f, 0x3f8a14d5] ++
  [0x3f8b95c2, 0x3f8d1adf, 0x3f8ea43a, 0x3f9031dc, 0x3f91c3d3, 0x3f935a2b, 0x3f94f4f0, 0x3f96942d] ++
  [0x3f9837f0, 0x3f99e046, 0x3f9b8d3a, 0x3f9d3eda, 0x3f9ef532, 0x3fa0b051, 0x3fa27043, 0x3fa43516] ++
  [0x3fa5fed7, 0x3fa7cd94, 0x3fa9a15b, 0x3fab7a3a, 0x3fad583f, 0x3faf3b79, 0x3fb123f6, 0x3fb311c4] ++
  [0x3fb504f3, 0x3fb6fd92, 0x3fb8fbaf, 0x3fbaff5b, 0x3fbd08a4, 0x3fbf179a, 0x3fc12c4d, 0x3fc346cd] ++
  [0x3fc5672a, 0x3fc78d75, 0x3fc9b9be, 0x3fcbec15, 0x3fce248c, 0x3fd06334, 0x3fd2a81e, 0x3fd4f35b] ++
  [0x3fd744fd, 0x3fd99d16, 0x3fdbfbb8, 0x3fde60f5, 0x3fe0ccdf, 0x3fe33f89, 0x3fe5b907, 0x3fe8396a] ++
  [0x3feac0c7, 0x3fed4f30, 0x3fefe4ba, 0x3ff28177, 0x3ff5257d, 0x3ff7d0df, 0x3ffa83b3, 0x3ffd3e0c]

def expL : F32 := 0x3FB8AA3B#32
def expC1 : F32 := 0x3F317218#32
def expC2 : F32 := 0x3E75FDF0#32
def expC3 : F32 := 0x3D635847#32
def geluK1 : F32 := 0x3D372713#32
def geluK2 : F32 := 0x3FCC422A#32

/-- exp of R101, step by step. -/
def fexp (x : F32) : F32 :=
  match fVal x with
  | .nan => qnan
  | .inf false => fInf false
  | .inf true => 0#32
  | .fin _ _ _ =>
    match fVal (fmul x expL) with
    | .nan => qnan
    | .inf neg => if neg then 0#32 else fInf false
    | .fin neg m e =>
      -- t = v * 2^-149 exactly
      let v := scaled neg m e (-149)
      let n := v.fdiv (2 ^ 149)
      let r := (v - n * 2 ^ 149).toNat
      let i := r * 64 / 2 ^ 149
      let d : FV := .fin false (r - i * 2 ^ 143) (-149)
      let h := fadd expC2 (fMulV d (fVal expC3))
      let h := fadd expC1 (fMulV d (fVal h))
      let h := fadd fOne (fMulV d (fVal h))
      match fVal (fmul (BitVec.ofNat 32 ((expTable[i]?).getD 0)) h) with
      | .fin s y f => fRound s y (f + n)
      | .inf s => fInf s
      | .nan => qnan

def fneg (x : F32) : F32 := x ^^^ 0x80000000#32

def sigmoid (x : F32) : F32 := fdiv fOne (fadd fOne (fexp (fneg x)))
def silu (x : F32) : F32 := fmul x (sigmoid x)
def gelu (x : F32) : F32 :=
  let w := fadd x (fmul geluK1 (fmul (fmul x x) x))
  fmul x (sigmoid (fmul geluK2 w))

/-! ### softmax (R104) -/

def fmax (a b : F32) : F32 := if ordKey a ≥ ordKey b then a else b

def softmax (s : List F32) : List F32 :=
  match s with
  | [] => []
  | a :: r =>
    let mx := r.foldl fmax a
    let es := s.map fun x => fexp (fsub x mx)
    let z := xsum (es.map fVal)
    es.map fun e => fdiv e z

/-! ### Quantiser and rescale (R95, R98) -/

structure Quant where
  q  : List Int
  sm : Nat
  se : Int
deriving DecidableEq, Repr

/-- Shift an integer right to nearest, or left for a negative shift. -/
def rneShiftI (z : Nat) (s : Int) : Nat := if s ≥ 0 then rneShift z s.toNat else z * 2 ^ (-s).toNat

/-- a8t of R95; `none` where an element is NaN or infinite (cause NONFINITE). -/
def a8t (x : List F32) : Option Quant :=
  if !(x.all isFinite) then none
  else
    let mags := x.map fun w => fld w 0 31
    let amax := mags.foldl max 0
    match fVal (BitVec.ofNat 32 amax) with
    | .fin _ g v =>
      if g = 0 then some ⟨x.map fun _ => 0, 0, 0⟩
      else
        let k := 24 - bitLen g
        let f := g * 2 ^ k
        let u := v - k
        let rcp := 127 * 2 ^ 47 / f
        let q := x.map fun w =>
          match fVal w with
          | .fin neg m e =>
            if m = 0 then (0 : Int)
            else
              let z : Int := rneShiftI (m * rcp) (u + 47 - e)
              if neg then -z else z
          | _ => 0
        let a := rneDiv f 254
        if a ≤ 65535 then some ⟨q, a, u + 1⟩ else some ⟨q, rneDiv f 508, u + 2⟩
    | _ => none

/-- rs of R98: v * m * 2^e rounded once; -0.0 where a negative product rounds to zero. -/
def rs (v : Int) (m : Nat) (e : Int) : F32 :=
  let p := v * m
  if p = 0 then 0#32 else fRound (decide (p < 0)) p.natAbs e

end Sys2Proof.Machine
end

