-- ==== Sys2Proof/Machine/Classifier.lean ====
section
/-! DEFINITION. Classifier.lean: what a CLASSIFY call computes (05 R90-R98, R103-R106): model headers, tensors, matrix products,
norms, attention over the KV ring in the request's pages, and the forward pass. -/

namespace Sys2Proof.Machine

/-- A model header (R90). -/
structure ModelHdr where
  layers  : Nat
  hidden  : Nat
  heads   : Nat
  kvheads : Nat
  hd      : Nat
  ffn     : Nat
  act     : Nat
  rms     : Bool
  w8      : Bool
  group   : Nat
  mean    : Bool
  pin     : Bool
  win     : Nat
  classes : Nat
  tv      : Nat
  eps     : F32
  ttab    : Nat
deriving DecidableEq, Repr

def State.modelHdr (s : State) (a : Nat) : ModelHdr :=
  let w := s.rd64 a
  let x := s.rd64 (a + 8)
  { layers := fld w 0 6, hidden := fld w 6 14, heads := fld w 20 7, kvheads := fld w 27 7
    hd := 64 * 2 ^ fld w 34 2, ffn := fld w 36 16, act := fld w 52 2, rms := bitAt w 54, w8 := bitAt w 55
    group := 32 * 2 ^ fld w 56 2, mean := bitAt w 58, pin := bitAt w 59
    win := fld x 0 13, classes := fld x 13 7, tv := fld x 20 2, eps := BitVec.ofNat 32 (fld x 32 32)
    ttab := fld (s.rd64 (a + 16)) 0 40 }

/-! ### The tensor table (R91) -/

/-- Tensors of one layer. -/
def ModelHdr.perLayer (m : ModelHdr) : Nat := if m.act = 2 then 9 else 8
def ModelHdr.layerAt (m : ModelHdr) (l k : Nat) : Nat := 2 + l * m.perLayer + k
def ModelHdr.downAt (m : ModelHdr) (l : Nat) : Nat := m.layerAt l (m.perLayer - 1)
def ModelHdr.normFin (m : ModelHdr) : Nat := 2 + m.layers * m.perLayer
def ModelHdr.headAt (m : ModelHdr) : Nat := m.normFin + 1
def ModelHdr.ntensor (m : ModelHdr) : Nat := m.headAt + 1

/-- Word k of tensor t. -/
def State.tensorWord (s : State) (m : ModelHdr) (t k : Nat) : Nat := fld (s.rd64 (m.ttab + 32 * t + 8 * k)) 0 40

/-- The matrices and norms of a model: (tensor, rows, reduction, W8G), and the norms' tensors. -/
def ModelHdr.matrices (m : ModelHdr) (ntok : Nat) : List (Nat × Nat × Nat × Bool) :=
  let hq := m.heads * m.hd
  let hk := m.kvheads * m.hd
  let layer := fun (l : Nat) =>
    [(m.layerAt l 1, hq, m.hidden, m.w8), (m.layerAt l 2, hk, m.hidden, m.w8), (m.layerAt l 3, hk, m.hidden, m.w8),
      (m.layerAt l 4, m.hidden, hq, m.w8), (m.layerAt l 6, m.ffn, m.hidden, m.w8)] ++
    (if m.act = 2 then [(m.layerAt l 7, m.ffn, m.hidden, m.w8)] else []) ++ [(m.downAt l, m.hidden, m.ffn, m.w8)]
  [(0, ntok, m.hidden, true), (1, m.win, m.hidden, true)] ++ (List.range m.layers).flatMap layer ++
    [(m.headAt, m.classes, m.hidden, m.w8)]

def ModelHdr.norms (m : ModelHdr) : List Nat :=
  ((List.range m.layers).flatMap fun l => [m.layerAt l 0, m.layerAt l 5]) ++ [m.normFin]

/-- The arrays of a model: address and bytes. -/
def State.modelArrays (s : State) (m : ModelHdr) (ntok : Nat) : List (Nat × Nat) :=
  (m.matrices ntok).flatMap (fun x =>
    let a := fun j => s.tensorWord m x.1 j
    [(a 0, if x.2.2.2 then x.2.1 * x.2.2.1 else x.2.1 * (x.2.2.1 / 2)), (a 1, 2 * (x.2.1 * (x.2.2.1 / m.group))), (a 2, 4 * x.2.1)] ++
      if a 3 = 0 then [] else [(a 3, 4 * x.2.1)]) ++
  m.norms.flatMap fun t => (s.tensorWord m t 0, 4 * m.hidden) :: if m.rms then [] else [(s.tensorWord m t 1, 4 * m.hidden)]

/-- The arrays that a call reads (R109): of the embedding and position tables the rows of its tokens, of the other tensors all. DESIGN
CHOICE: looked up in the order of the tensor table, once a call (log entry 79). -/
def State.callArrays (s : State) (m : ModelHdr) (p0 : Nat) (toks : List Nat) : List (Nat × Nat) :=
  let row := fun (t n : Nat) =>
    let a := fun j => s.tensorWord m t j
    [(a 0 + n * m.hidden, m.hidden), (a 1 + 2 * (n * (m.hidden / m.group)), 2 * (m.hidden / m.group)), (a 2 + 4 * n, 4)]
  (toks.eraseDups.flatMap (row 0)) ++ (List.range toks.length).flatMap (fun j => row 1 (min (p0 + j) (m.win - 1))) ++
    s.modelArrays { m with win := 0 } 0

/-! ### Weights, scales, skew (R93, R94) -/

def toSigned (bits v : Nat) : Int := if v ≥ 2 ^ (bits - 1) then (v : Int) - 2 ^ bits else v

/-- The K weights of row n. -/
def State.weightRow (s : State) (w8 : Bool) (data n k : Nat) : List Int :=
  if w8 then (s.rd (data + n * k) k).map fun b => toSigned 8 b.toNat
  else (s.rd (data + n * (k / 2)) (k / 2)).flatMap fun b => [toSigned 4 (b.toNat % 16), toSigned 4 (b.toNat / 16)]

/-- The scale words of row n's groups, as (scale, skewed). -/
def State.scaleRow (s : State) (scales n ng : Nat) : List (Nat × Bool) :=
  (List.range ng).map fun g =>
    let w := leNat (s.rd (scales + 2 * (n * ng + g)) 2)
    (w % 256, decide (w / 256 % 16 ≠ (n * ng + g) % 16) || decide (w / 4096 ≠ 0))

/-- The row scale: mantissa and exponent. -/
def State.rowScale (s : State) (rowsc n : Nat) : Nat × Int :=
  let w := (s.rd32 (rowsc + 4 * n))
  (fld w 0 16, toSigned 8 (fld w 16 8))

/-- Σ over groups of SCALE × Σ w × q (R97). -/
def groupAcc (group : Nat) : List (Nat × Bool) → List Int → List Int → Int
  | [], _, _ => 0
  | sc :: r, ws, qs =>
    let x := ((ws.take group).zip (qs.take group)).foldl (fun a p => a + p.1 * p.2) (0 : Int)
    sc.1 * x + groupAcc group r (ws.drop group) (qs.drop group)

/-! ### The forward pass threads the block's state (KV entries), counts and faults -/

structure Fwd where
  s    : State
  ovf  : Nat              -- rescales to infinity (R98)
  skew : List (Nat × Nat) -- skewed scale words: their array and group number, each once (R94)
  bad  : Bool             -- a quantiser met a NaN or an infinity (R95)
  nan  : Bool             -- a quantiser met the NaN of a skewed row: every later value is that NaN (R94)
  oob  : Bool             -- an access to the KV area failed its check, and is counted (13 R287, R292, R295)

def isInf (x : F32) : Bool := decide (fld x 0 31 = 0x7F800000)

/-- A rescale, counted when it returns infinity. -/
def Fwd.rs (f : Fwd) (v : Int) (m : Nat) (e : Int) : Fwd × F32 :=
  let x := Sys2Proof.Machine.rs v m e
  (if isInf x then { f with ovf := f.ovf + 1 } else f, x)

/-- Quantise, or mark the call faulted and go on with zeros. The NaN of a skewed row does not stop the call: R94 lets it complete. -/
def Fwd.quant (f : Fwd) (x : List F32) : Fwd × Quant :=
  match a8t x with
  | some q => (f, q)
  | none => (if f.skew.isEmpty then { f with bad := true } else { f with nan := true }, ⟨x.map fun _ => 0, 0, 0⟩)

/-- The skewed words of row n of the array at `scales`: a word that several tokens read is one skew (R94). -/
def Fwd.skewed (f : Fwd) (scales n ng : Nat) (sc : List (Nat × Bool)) : Fwd :=
  let bad := (List.range ng).filter fun g => ((sc[g]?).map fun x => x.2).getD false
  { f with skew := f.skew ++ ((bad.map fun g => (scales, n * ng + g)).filter fun x => !f.skew.contains x) }

/-- Fold with the threaded state, keeping the results in order. -/
def Fwd.mapM {α β : Type} (g : Fwd → α → Fwd × β) : Fwd → List α → Fwd × List β
  | f, [] => (f, [])
  | f, a :: r =>
    let x := g f a
    let y := Fwd.mapM g x.1 r
    (y.1, x.2 :: y.2)

/-- One output row of a matrix product (R94, R97, R98). -/
def Fwd.row (m : ModelHdr) (data scales rowsc bias k : Nat) (q : Quant) (f : Fwd) (n : Nat) : Fwd × F32 :=
  let ng := k / m.group
  let sc := f.s.scaleRow scales n ng
  if sc.any fun x => x.2 then (f.skewed scales n ng sc, qnan)
  else
    let acc := groupAcc m.group sc (f.s.weightRow m.w8 data n k) q.q
    let r := f.s.rowScale rowsc n
    let x := f.rs acc (r.1 * q.sm) (r.2 + q.se)
    (x.1, if bias = 0 then x.2 else fadd x.2 (f.s.rd32 (bias + 4 * n)))

/-- The product of tensor t with a quantised vector: N rows, reduction K. -/
def Fwd.lin (m : ModelHdr) (t n k : Nat) (f : Fwd) (q : Quant) : Fwd × List F32 :=
  let a := fun j => f.s.tensorWord m t j
  Fwd.mapM (fun f r => f.row m (a 0) (a 1) (a 2) (a 3) k q r) f (List.range n)

/-- A dequantised row of the embedding or position table (R91, R98): always W8G. -/
def Fwd.deqRow (m : ModelHdr) (t : Nat) (f : Fwd) (n : Nat) : Fwd × List F32 :=
  let k := m.hidden
  let ng := k / m.group
  let sc := f.s.scaleRow (f.s.tensorWord m t 1) n ng
  let r := f.s.rowScale (f.s.tensorWord m t 2) n
  let f := f.skewed (f.s.tensorWord m t 1) n ng sc
  let ws := f.s.weightRow true (f.s.tensorWord m t 0) n k
  let items := ws.mapIdx fun j w => (((sc[j / m.group]?).getD (0, false)).1 * w : Int)
  if sc.any fun x => x.2 then (f, items.map fun _ => qnan) else Fwd.mapM (fun f v => f.rs v r.1 r.2) f items

/-! ### Norms (R103) -/

def State.floats (s : State) (a n : Nat) : List F32 := (List.range n).map fun i => s.rd32 (a + 4 * i)

def zip3 (g : F32 → F32 → F32) (a b : List F32) : List F32 := (a.zip b).map fun p => g p.1 p.2

def Fwd.norm (f : Fwd) (m : ModelHdr) (t : Nat) (x : List F32) : List F32 :=
  let h := ofInt m.hidden
  let g := f.s.floats (f.s.tensorWord m t 0) m.hidden
  if m.rms then
    let ms := fdiv (xsum (x.map fun v => fvMul (fVal v) (fVal v))) h
    let r := fdiv fOne (fsqrt (fadd ms m.eps))
    zip3 (fun v gi => fmul (fmul v r) gi) x g
  else
    let b := f.s.floats (f.s.tensorWord m t 1) m.hidden
    let mu := fdiv (xsum (x.map fVal)) h
    let d := x.map fun v => fsub v mu
    let var := fdiv (xsum (d.map fun v => fvMul (fVal v) (fVal v))) h
    let r := fdiv fOne (fsqrt (fadd var m.eps))
    zip3 fadd (zip3 (fun v gi => fmul (fmul v r) gi) d g) b

/-! ### The KV ring (R96, R106; 13 R295) -/

abbrev KvArea := List (Nat × Nat × Nat)

/-- Area offset of an entry: layer, head, key or value, slot. -/
def ModelHdr.kvOff (m : ModelHdr) (l h v slot : Nat) : Nat := (((l * m.kvheads + h) * 2 + v) * m.win + slot) * (m.hd + 4)

/-- An entry's bytes: the D quantised values, then the scale word. -/
def quantBytes (q : Quant) : List Byte :=
  (q.q.map fun v => BitVec.ofInt 8 v) ++ leBytes 2 q.sm ++ leBytes 2 (BitVec.ofInt 16 q.se).toNat

def Fwd.kvPut (m : ModelHdr) (d : Nat) (ps : KvArea) (l h v slot : Nat) (f : Fwd) (x : List F32) : Fwd :=
  let y := f.quant x
  let o := m.kvOff l h v slot
  if y.1.nan || y.1.oob then y.1
  else if o + m.hd + 4 > areaSize ps then { y.1 with s := y.1.s.viol, oob := true }
  else
    let w := y.1.s.wrArea d ps o (quantBytes y.2)
    if w.2 then { y.1 with s := w.1 } else { y.1 with s := w.1, oob := true }

def State.kvGet (s : State) (m : ModelHdr) (ps : KvArea) (l h v slot : Nat) : Quant :=
  let bs := (s.rdArea ps (m.kvOff l h v slot) (m.hd + 4)).map fun b => b.getD 0
  ⟨(bs.take m.hd).map fun b => toSigned 8 b.toNat, leNat ((bs.drop m.hd).take 2),
    toSigned 16 (leNat ((bs.drop (m.hd + 2)).take 2))⟩

/-- An entry that a query reads: one whose page fails its check ends the call (13 R287, R292). -/
def Fwd.kvRead (m : ModelHdr) (d : Nat) (ps : KvArea) (l h v : Nat) (f : Fwd) (slot : Nat) : Fwd × Quant :=
  let o := m.kvOff l h v slot
  if f.oob then (f, ⟨[], 0, 0⟩)
  else if f.s.areaReads d ps o (m.hd + 4) then (f, f.s.kvGet m ps l h v slot)
  else ({ f with s := f.s.areaFail d ps o (m.hd + 4), oob := true }, ⟨[], 0, 0⟩)

/-- Σ of integer products. -/
def dot (a b : List Int) : Int := (a.zip b).foldl (fun s p => s + p.1 * p.2) 0

/-- One query head (R106). -/
def Fwd.head (m : ModelHdr) (d : Nat) (ps : KvArea) (l p : Nat) (q : List F32) (f : Fwd) (i : Nat) : Fwd × List F32 :=
  let kvh := i * m.kvheads / m.heads
  let y := f.quant ((q.drop (i * m.hd)).take m.hd)
  let win := (List.range (min (p + 1) m.win)).map fun j => (p + 1 - min (p + 1) m.win + j) % m.win
  let ks := Fwd.mapM (Fwd.kvRead m d ps l kvh 0) y.1 win
  let vs := Fwd.mapM (Fwd.kvRead m d ps l kvh 1) ks.1 win
  let vals := vs.2
  let sc := Fwd.mapM (fun f (k : Quant) => f.rs (dot y.2.q k.q) (y.2.sm * k.sm) (y.2.se + k.se)) vs.1 ks.2
  let prob := softmax sc.2
  let w := Fwd.mapM (fun f (x : F32 × Quant) =>
    let v := f.rs 1 x.2.sm x.2.se
    (v.1, fmul x.1 v.2)) sc.1 (prob.zip vals)
  let wq := w.1.quant w.2
  Fwd.mapM (fun f j => f.rs (dot wq.2.q (vals.map fun v => (v.q[j]?).getD 0)) wq.2.sm wq.2.se) wq.1 (List.range m.hd)

/-! ### Layers and tokens (R105) -/

/-- The activation of the feed-forward part (R102). -/
def actFn (k : Nat) (x : F32) : F32 := if k = 0 then gelu x else silu x

def Fwd.layer (m : ModelHdr) (d : Nat) (ps : KvArea) (p : Nat) (f : Fwd) (h : List F32) (l : Nat) : Fwd × List F32 :=
  let t := fun k => m.layerAt l k
  let qh := m.heads * m.hd
  let kh := m.kvheads * m.hd
  let a := f.quant (f.norm m (t 0) h)
  let q := a.1.lin m (t 1) qh m.hidden a.2
  let k := q.1.lin m (t 2) kh m.hidden a.2
  let v := k.1.lin m (t 3) kh m.hidden a.2
  let slot := p % m.win
  let f := (List.range m.kvheads).foldl (fun f j =>
    (f.kvPut m d ps l j 0 slot ((k.2.drop (j * m.hd)).take m.hd)).kvPut m d ps l j 1 slot
      ((v.2.drop (j * m.hd)).take m.hd)) v.1
  let c := Fwd.mapM (fun f i => f.head m d ps l p q.2 i) f (List.range m.heads)
  let cq := c.1.quant c.2.flatten
  let o := cq.1.lin m (t 4) m.hidden qh cq.2
  let h := zip3 fadd h o.2
  let b := o.1.quant (o.1.norm m (t 5) h)
  let up := b.1.lin m (t 6) m.ffn m.hidden b.2
  let g := if m.act = 2 then
      let x := up.1.lin m (t 7) m.ffn m.hidden b.2
      (x.1, zip3 (fun a b => fmul (silu a) b) x.2 up.2)
    else (up.1, up.2.map (actFn m.act))
  let gq := g.1.quant g.2
  let dn := gq.1.lin m (m.downAt l) m.hidden m.ffn gq.2
  (dn.1, zip3 fadd h dn.2)

/-- One token at position p: its last hidden vector. A call that has faulted goes no further. -/
def Fwd.token (m : ModelHdr) (d : Nat) (ps : KvArea) (f : Fwd) (x : Nat × Nat) : Fwd × List F32 :=
  if f.bad || f.oob then (f, [])
  else
    let e := f.deqRow m 0 x.2
    let po := e.1.deqRow m 1 (min x.1 (m.win - 1))
    (List.range m.layers).foldl (fun (a : Fwd × List F32) l =>
      if a.1.bad || a.1.oob then a else a.1.layer m d ps x.1 a.2 l) (po.1, zip3 fadd e.2 po.2)

/-- The whole call: tokens from position p0 on; CLASSES logits (R105). Behind the NaN of a skewed row every logit is that NaN (R94). -/
def State.classifyRun (s : State) (d : Nat) (m : ModelHdr) (ps : KvArea) (p0 : Nat) (toks : List Nat) : Fwd × List F32 :=
  let hs := Fwd.mapM (fun f x => f.token m d ps x) ⟨s, 0, [], false, false, false⟩ (toks.mapIdx fun j x => (p0 + j, x))
  let f := hs.1
  if f.bad || f.oob then (f, [])
  else
    let z := if m.mean then
        (List.range m.hidden).map fun i =>
          fdiv (xsum (hs.2.map fun h => fVal ((h[i]?).getD 0))) (ofInt toks.length)
      else hs.2.getLast?.getD []
    let q := f.quant (f.norm m m.normFin z)
    if q.1.bad then (q.1, [])
    else
      let y := q.1.lin m m.headAt m.classes m.hidden q.2
      if y.1.nan then (y.1, y.2.map fun _ => qnan) else y

end Sys2Proof.Machine
end

