-- ==== Sys2Proof/Machine/Operands.lean ====
section
/-! DEFINITION. Operands.lean: every operand form of a Salm instruction (09 R187-R195, R201-R204; 10 R207): fields and
immediates, registers with their poison bits, the guard, the job's address space, and the issue of one instruction. -/

namespace Sys2Proof.Machine

/-! ### Fields of a word without its opcode (R203, R204) -/

def fX (f : BitVec 26) : Bool := bitAt f 25
def fGD (f : BitVec 26) : Nat := fld f 20 5
def fGA (f : BitVec 26) : Nat := fld f 15 5
def fGB (f : BitVec 26) : Nat := fld f 10 5
/-- FN of format A and FL of format E. -/
def fFN (f : BitVec 26) : Nat := fld f 0 6
def fIMM (f : BitVec 26) : Nat := fld f 0 11
def fSZ (f : BitVec 26) : Nat := fld f 9 2
/-- Guard of formats A and E, of B and D, of C: predicate and PN. -/
def guardA (f : BitVec 26) : Nat × Bool := (fld f 7 3, bitAt f 6)
def guardB (f : BitVec 26) : Nat × Bool := (fld f 12 3, bitAt f 11)
def guardC (f : BitVec 26) : Nat × Bool := (fld f 22 3, bitAt f 21)

def sext (bits n : Nat) : Word := (BitVec.ofNat bits n).signExtend 64

/-- The immediate of format B. -/
def immB (f : BitVec 26) (x : BitVec 32) : Word := if fX f then sext 43 (x.toNat * 2048 + fIMM f) else sext 11 (fIMM f)
/-- The byte offset of format D: OFF in units of the access size. -/
def offD (f : BitVec 26) (x : BitVec 32) : Word :=
  (if fX f then sext 41 (x.toNat * 512 + fld f 0 9) else sext 9 (fld f 0 9)) <<< fSZ f
/-- The word offset of format C. -/
def offC (f : BitVec 26) : Word := sext 21 (fld f 0 21)

/-! ### Registers and predicates (R187, R191) -/

def Job.reg (j : Job) (r : Nat) : Reg := if r = 0 then ⟨0, false⟩ else (j.regs[r]?).getD ⟨0, false⟩
def Job.val (j : Job) (r : Nat) : Word := (j.reg r).val
def Job.setReg (j : Job) (r : Nat) (v : Word) (pois : Bool) : Job :=
  if r = 0 then j else { j with regs := putAt ⟨0, false⟩ j.regs r ⟨v, pois⟩ }
def Job.pred (j : Job) (p : Nat) : Bool := decide (p = 0) || bitAt j.preds p
def Job.setPred (j : Job) (p : Nat) (b : Bool) : Job :=
  if p = 0 then j
  else { j with preds := if b then j.preds ||| (1#8 <<< p) else j.preds &&& ~~~(1#8 <<< p) }

/-- The second operand of format A (R204) and its poison bit. -/
def Job.op2 (j : Job) (f : BitVec 26) (x : BitVec 32) : Reg :=
  if fX f then ⟨sext 32 x.toNat, false⟩ else j.reg (fGB f)

/-- GB must be zero where the extension word is the operand (R204). -/
def gbOk (f : BitVec 26) : Bool := !fX f || decide (fGB f = 0)

/-! ### Holds (R196, R217) -/

/-- Does an outstanding call's status register or the destination of a load hold an instruction that reads register r (R195, R196)? -/
def Job.busy (j : Job) (r : Nat) : Bool :=
  decide (r ≠ 0) && ((j.calls.any fun c => decide (c.gd = r)) || j.ldms.any fun l => decide (l.gr = r))

/-- Does an outstanding call's status register hold an instruction that writes register r (R196)? A load's destination does not: the
write makes the load's data stale (R195, log entry 10). -/
def Job.busyWr (j : Job) (r : Nat) : Bool := decide (r ≠ 0) && j.calls.any fun c => decide (c.gd = r)

/-! ### Issue (R200, R201, R207) -/

/-- What an instruction does once it issues. -/
inductive Eff where
  | held
  | fault (code : Nat)
  | next  (s : State) (j : Job)
  | jump  (s : State) (j : Job) (pc : Nat)
  | gone  (s : State)

/-- Bytes of the instruction. -/
def ilen (f : BitVec 26) : Nat := if fX f then 8 else 4

/-- A write of the registers rs: data of an earlier load for one of them goes nowhere (R195). -/
def Job.overwrite (j : Job) (rs : List Nat) : Job :=
  { j with ldms := j.ldms.map fun l => if rs.contains l.gr then { l with gr := 0 } else l }

/-- An instruction of a slot's job issues: counted, and its core's issue of this tally noted (16 R367). -/
def State.issuing (s : State) (slot : Nat) : State :=
  let s := s.count 5 0x10 1
  { s with cnt := { s.cnt with issued := Tab.set s.cnt.issued (slot / 4) s.tally } }

/-- Issue an instruction of the job in a slot: PCBOUND and ILLEGAL are raised whether or not the guard holds; a guarded-false
instruction only advances; a held one does not issue. -/
def State.issue (s : State) (slot : Nat) (f : BitVec 26) (legal : Bool) (guard : Nat × Bool)
    (reads writes : List Nat) (body : State → Job → Eff) : State :=
  match s.job slot with
  | none => s
  | some j =>
    if !s.running || decide (j.wait ≠ .no) then s
    else
      let n := s.issuing slot
      if j.pc + ilen f > 4 * j.nword then n.jobFault slot 0x11 0 s.tally
      else if !legal then n.jobFault slot 0x10 0 s.tally
      else if j.pred guard.1 = guard.2 then
        (n.count 5 0x11 1).setJob slot (some { j with pc := j.pc + ilen f })
      else if reads.any j.busy || writes.any j.busyWr then s
      else match body n (j.overwrite writes) with
        | .held => s
        | .fault c => n.jobFault slot c 0 s.tally
        | .next s' j' => s'.setJob slot (some { j' with pc := j.pc + ilen f })
        | .jump s' j' pc => s'.setJob slot (some { j' with pc := pc })
        | .gone s' => s'

/-! ### Job scratch (R189, R190) -/

/-- The scratch word at index k, if its generation is the job's. -/
def Slot.word (x : Slot) (k : Nat) : Option SWord :=
  match Tab.get x.words k with
  | some w => if w.valid && decide (w.gen = x.gen) then some w else none
  | none => none

/-- Poisoned or stale (R190, R224). -/
def Slot.wordBad (x : Slot) (k : Nat) : Bool :=
  match x.word k with
  | some w => w.pois
  | none => true

/-- n bytes at a, within one word; stale words read as poisoned zero. -/
def Slot.load (x : Slot) (a n : Nat) : Nat × Bool × Bool :=
  match x.word (a / 8) with
  | some w => (fld w.val (8 * (a % 8)) (8 * n), w.pois, false)
  | none => (0, true, true)

/-- The bytes of a word replaced from place o on. -/
def mergeBytes (w : Word) (o n v : Nat) : Word :=
  let m : Word := (BitVec.allOnes 64 >>> (64 - 8 * n)) <<< (8 * o)
  (w &&& ~~~m) ||| ((BitVec.ofNat 64 v <<< (8 * o)) &&& m)

/-- A store of n bytes at a: the word takes the job's generation and the poison bit given (R190, R191). -/
def Slot.store (x : Slot) (a n v : Nat) (pois : Bool) : Slot :=
  let old := match x.word (a / 8) with
    | some w => w.val
    | none => 0
  { x with words := Tab.set x.words (a / 8) ⟨mergeBytes old (a % 8) n v, x.gen, pois, true⟩ }

/-- An engine's write of bytes at a, each with the poison bit of its word. -/
def Slot.storeBytes (x : Slot) (a : Nat) : List (Byte × Bool) → Slot
  | [] => x
  | b :: r => (x.store a 1 b.1.toNat b.2).storeBytes (a + 1) r

def Slot.byte (x : Slot) (a : Nat) : Nat := (x.load a 1).1
def Slot.bytes (x : Slot) (a n : Nat) : List Byte := (List.range n).map fun i => BitVec.ofNat 8 (x.byte (a + i))
/-- Is any word of [a, a+n) poisoned or stale? -/
def Slot.anyBad (x : Slot) (a n : Nat) : Bool := (List.range ((a + n + 7) / 8 - a / 8)).any fun k => x.wordBad (a / 8 + k)

/-! ### State windows (R192, R193) -/

/-- The page-list entry that a window shows. -/
def State.winRun (s : State) (j : Job) (w : Nat) : Option Run :=
  ((j.wins[w]?).getD none).bind fun n =>
    let e := s.entry (hIdx j.handle)
    if n < e.npage then some (runOf (s.rd64 (e.plist + 8 * n))) else none

/-- The program area of the page that a run's window shows (R291, R293). -/
def Run.prog (r : Run) (o : Nat) : Bool :=
  (decide (r.role = 0) && decide (0x8000 ≤ o)) || (decide (r.role = 4) && decide (0x40 ≤ o))

/-- The stores of the job in a slot to the word at a that are not ordered yet. -/
def State.ownStores (s : State) (slot a : Nat) : List Store :=
  match s.job slot with
  | some j => j.stores.filter fun x => decide (x.addr = a)
  | none => []

/-- Latest first. -/
def insStore (x : Store) : List Store → List Store
  | [] => [x]
  | y :: r => if y.num < x.num then x :: y :: r else y :: insStore x r

/-- Other jobs' stores to the word at a that are not ordered yet, latest first, each with the bytes, and the poison tag, that the job in the
slot may still see as they were: not those that it has stored since (R193). -/
def State.unordered (s : State) (slot a : Nat) : List Store :=
  let own := s.ownStores slot a
  let us := (s.pil.slots.flatMap fun p => if p.1 = slot then [] else s.ownStores p.1 a).map fun x =>
    { x with mask := own.foldl (fun m o => if x.num < o.num then m &&& ~~~o.mask else m) x.mask }
  (us.filter fun x => decide (x.mask ≠ 0)).foldl (fun l x => insStore x l) []

/-- The stores of the job in a slot become visible (R193): no job sees any more what stood there before them. -/
def State.order (s : State) (slot : Nat) : State :=
  match s.job slot with
  | none => s
  | some j =>
    let past := fun (x : Store) => j.stores.foldl (fun (x : Store) o =>
      if o.addr = x.addr ∧ x.num < o.num then { x with mask := x.mask &&& ~~~o.mask } else x) x
    { s with pil := { s.pil with slots := s.pil.slots.map fun p => (p.1, { p.2 with job := p.2.job.map fun q =>
      if p.1 = slot then { q with stores := [] } else { q with stores := q.stores.map past } }) } }

/-- Bytes of a word that a store of n bytes at place o writes, and its poison tag. -/
def byteMask (o n : Nat) : BitVec 9 := (((BitVec.allOnes 8 >>> (8 - n)) <<< o).setWidth 9) ||| (1#9 <<< 8)

/-- A word of memory with its poison tag: that of `old` where the mask is set, of `new` elsewhere. -/
def blend (m : BitVec 9) (old new : Word × Bool) : Word × Bool :=
  ((List.range 8).foldl (fun w i => if bitAt m i then mergeBytes w i 1 (fld old.1 (8 * i) 8) else w) new.1,
    if bitAt m 8 then old.2 else new.2)

/-- What a load sees of a word that others have stored to without order, latest first: of each store the new value or the old one, each a free
value, but never the old one of what a later store that is seen wrote (R193). -/
def unsee : List Store → Nat → BitVec 9 → Word × Bool → Word × Bool
  | [], _, _, w => w
  | u :: r, k, seen, w =>
    if Config.seesNew k then unsee r (k + 1) (seen ||| u.mask) w
    else unsee r (k + 1) seen (blend (u.mask &&& ~~~seen) (u.old, u.pois) w)

/-- n free values are used. -/
def State.drawn (s : State) (n : Nat) : State := { s with fresh := s.fresh + n }

/-- A load through a window: value, poison, and the state after it (R192, R193). -/
def State.winLoad (s : State) (slot : Nat) (r : Run) (o n : Nat) : State × Nat × Bool :=
  if !s.pageOk r.page r.owner r.gen then (s.stale, 0, true)
  else
    let a := (r.page + o) / 8 * 8
    let s := s.scAccess a r.owner r.gen
    let us := s.unordered slot a
    let w := unsee us s.fresh 0 (s.cacheWord a)
    (s.drawn us.length, fld w.1 (8 * (o % 8)) (8 * n), w.2)

/-- The bytes of a store that takes effect before an unordered one are the old ones of that one. -/
def Store.after (x : Store) (m : BitVec 9) (w : Word × Bool) : Store :=
  let q := blend (x.mask &&& m) w (x.old, x.pois)
  { x with old := q.1, pois := q.2 }

/-- A store to the program area: at once in the state cache. Where other jobs have stored to the word without order it takes effect behind
them, or, as free values have it, before them: then what they wrote stands, and what it wrote is what stood before the earliest of them
(R193). Stores are numbered by the draw counter. -/
def State.winStore (s : State) (slot : Nat) (j : Job) (r : Run) (o n v : Nat) (pois : Bool) : State × Job :=
  let a := (r.page + o) / 8 * 8
  let s := s.scAccess a r.owner r.gen
  let old := s.cacheWord a
  let us := s.unordered slot a
  let m := byteMask (o % 8) n
  let new := (mergeBytes old.1 (o % 8) n v, pois)
  let first := us.isEmpty || Config.seesNew s.fresh
  let lose := if first then 0#9 else us.foldl (fun m u => m ||| u.mask) 0#9
  let w := blend lose old new
  let num := s.fresh
  -- bytes of each store that no earlier unordered one wrote
  let lead := fun (x : Store) => us.foldl (fun m u => if u.num < x.num then m &&& ~~~u.mask else m) (m &&& lose)
  let s := if first then s else { s with pil := { s.pil with slots := s.pil.slots.map fun p => (p.1, { p.2 with job := p.2.job.map fun q =>
    if p.1 = slot then q else { q with stores := q.stores.map fun x => if x.addr = a then x.after (lead x) new else x } }) } }
  ((s.cachePut a w.1 w.2).draw, { j with stores := j.stores ++ [⟨a, old.1, old.2, m &&& ~~~lose, num⟩] })

/-! ### The address space (R189, R194, R216) -/

/-- What a load gives: a fault, or the state after it, the value and the poison bit. -/
def State.loadAt (s : State) (slot : Nat) (j : Job) (a n : Nat) : Except Nat (State × Nat × Bool) :=
  if a % n ≠ 0 then .error 0x12
  else if a < 0x10000 then
    let x := (s.slot slot).load a n
    .ok (if x.2.2 then s.stale else s, x.1, x.2.1)
  else if a < 0x50000 then
    match s.winRun j (a / 0x10000 - 1) with
    | none => .error 0x15
    | some r => .ok (s.winLoad slot r (a % 0x10000) n)
  else if a < 0x50200 then
    let i := (a - 0x50000) / 8
    match s.inst j.inst with
    | none => .ok (s, 0, true)
    | some g =>
      let dep := match g.tasks[j.task]? with
        | some k => bitAt k.deps i
        | none => false
      if dep && bitAt g.done i then
        match Tab.get g.results i with
        | some w => .ok (s, fld w (8 * (a % 8)) (8 * n), false)
        | none => .ok (s, 0, true)   -- never posted: not valid (R194, 14 R313)
      else if dep && bitAt g.skip i then .ok (s, 0, false)
      else .ok (s, 0, true)
  else .error 0x13

/-- What a store does: a fault, or the state and job after it. -/
def State.storeAt (s : State) (slot : Nat) (j : Job) (a n v : Nat) (pois : Bool) : Except Nat (State × Job) :=
  if a % n ≠ 0 then .error 0x12
  else if a < 0x10000 then
    .ok (s.setSlot slot ((s.slot slot).store a n v pois), j)
  else if a < 0x50000 then
    match s.winRun j (a / 0x10000 - 1) with
    | none => .error 0x15
    | some r =>
      if !s.pageOk r.page r.owner r.gen then .error 0x17
      else if !r.prog (a % 0x10000) then .error 0x14
      else .ok (s.winStore slot j r (a % 0x10000) n v pois)
  else if a < 0x50200 then .error 0x14
  else .error 0x13

end Sys2Proof.Machine
end

