-- ==== Sys2Proof/Machine/Flags.lean ====
section
/-! DEFINITION. Flags.lean: the predicate computations (10 R212, R213, R215). The Pilot core has no other flags. -/

namespace Sys2Proof.Machine

/-- The comparisons of CMP by FN (R212). -/
def cmpFn (fn : Nat) (a b : Word) : Option Bool :=
  match fn with
  | 0 => some (decide (a = b))
  | 1 => some (decide (a ≠ b))
  | 2 => some (a.slt b)
  | 3 => some (a.sle b)
  | 4 => some (a.ult b)
  | 5 => some (a.ule b)
  | 6 => some (decide (a &&& b ≠ 0))
  | _ => none

/-- The conditions of CMPI by GD[4:3] (09 R205). -/
def cmpiFn (c : Nat) (a b : Word) : Bool :=
  match c with
  | 0 => decide (a = b)
  | 1 => decide (a ≠ b)
  | 2 => a.slt b
  | _ => a.ult b

/-- Predicate logic by FN (R213). -/
def plogFn (fn : Nat) (a b : Bool) : Option Bool :=
  match fn with
  | 0 => some (a && b)
  | 1 => some (a || b)
  | 2 => some (a ^^ b)
  | 3 => some (a && !b)
  | 4 => some (!a)
  | _ => none

/-- The binary32 comparisons by FN (R215): EQ, LT and LE are false on a NaN, and −0.0 equals +0.0. -/
def fcmpFn (fn : Nat) (a b : F32) : Option Bool :=
  let nan := isNan a || isNan b
  let zero := decide (fld a 0 31 = 0) && decide (fld b 0 31 = 0)
  let eq := !nan && (zero || decide (a = b))
  let lt := !nan && !zero && decide (ordKey a < ordKey b)
  match fn with
  | 0 => some eq
  | 1 => some lt
  | 2 => some (eq || lt)
  | 3 => some nan
  | _ => none

end Sys2Proof.Machine
end

