-- ==== Sys2Proof/Machine/Integer.lean ====
section
/-! DEFINITION. Integer.lean: the integer, predicate and binary32 instructions (10 R209-R215): ALU, ADDI, ANDI, ORI, XORI, SHI,
MULDIV, LI, LIH, EXTR, CMP, CMPI, PLOG, FPU, FCMP. -/

namespace Sys2Proof.Machine

/-! ### Functions -/

def popc (w : Word) : Nat := ((List.range 64).filter fun i => bitAt w i).length
def clz (w : Word) : Nat := ((List.range 64).takeWhile fun i => !bitAt w (63 - i)).length
def ctz (w : Word) : Nat := ((List.range 64).takeWhile fun i => !bitAt w i).length

/-- The functions of ALU by FN (R209). -/
def aluFn (fn : Nat) (a b : Word) : Option Word :=
  let n := fld b 0 6
  match fn with
  | 0x00 => some (a + b)
  | 0x01 => some (a - b)
  | 0x02 => some (a &&& b)
  | 0x03 => some (a ||| b)
  | 0x04 => some (a ^^^ b)
  | 0x05 => some (a &&& ~~~b)
  | 0x06 => some (a <<< n)
  | 0x07 => some (a >>> n)
  | 0x08 => some (a.sshiftRight n)
  | 0x09 => some (if a.sle b then a else b)
  | 0x0A => some (if a.sle b then b else a)
  | 0x0B => some (if a.ule b then a else b)
  | 0x0C => some (if a.ule b then b else a)
  | 0x0D => some (BitVec.ofNat 64 (popc a))
  | 0x0E => some (BitVec.ofNat 64 (clz a))
  | 0x0F => some (BitVec.ofNat 64 (ctz a))
  | _ => none

/-- Single-operand functions need GB zero and X = 0. -/
def oneOp (f : BitVec 26) : Bool := !fX f && decide (fGB f = 0)

/-- Multiply, divide and remainder by FN (R211): division truncates towards zero and no case faults. -/
def muldivFn (fn : Nat) (a b : Word) : Option Word :=
  match fn with
  | 0 => some (a * b)
  | 1 => some (BitVec.ofInt 64 (a.toInt * b.toInt / 2 ^ 64))
  | 2 => some (BitVec.ofNat 64 (a.toNat * b.toNat / 2 ^ 64))
  | 3 => some (if b = 0 then BitVec.allOnes 64 else BitVec.ofInt 64 (a.toInt.tdiv b.toInt))
  | 4 => some (if b = 0 then BitVec.allOnes 64 else BitVec.ofNat 64 (a.toNat / b.toNat))
  | 5 => some (if b = 0 then a else BitVec.ofInt 64 (a.toInt.tmod b.toInt))
  | 6 => some (if b = 0 then a else BitVec.ofNat 64 (a.toNat % b.toNat))
  | _ => none

/-- SHI by IMM (R210). -/
def shiFn (imm : Nat) (a : Word) : Option Word :=
  let n := imm % 64
  match imm / 64 with
  | 0 => some (a <<< n)
  | 1 => some (a >>> n)
  | 2 => some (a.sshiftRight n)
  | _ => none

/-- EXTR by the raw IMM (R210). -/
def extrFn (imm : Nat) (a : Word) : Option Word :=
  let w := imm / 64 + 1
  if w > 32 then none else some ((a >>> (imm % 64)) &&& (BitVec.allOnes 64 >>> (64 - w)))

/-- The binary32 functions by FN (R214); the result of FCVTSI is a 64-bit integer. -/
def fpuFn (fn : Nat) (ga : Word) (b : F32) : Option Word :=
  let a := BitVec.ofNat 32 ga.toNat
  let z := fun (v : F32) => some (v.setWidth 64)
  match fn with
  | 0x00 => z (fadd a b)
  | 0x01 => z (fsub a b)
  | 0x02 => z (fmul a b)
  | 0x03 => z (fdiv a b)
  | 0x04 => z (fsqrt a)
  | 0x05 => z (if isNan a || isNan b then qnan else if ordKey a ≤ ordKey b then a else b)
  | 0x06 => z (if isNan a || isNan b then qnan else if ordKey a ≥ ordKey b then a else b)
  | 0x07 => z (ofInt ga.toInt)
  | 0x08 => some (BitVec.ofInt 64 (toInt64 a))
  | 0x09 => z (fexp a)
  | 0x0A => z (sigmoid a)
  | 0x0B => z (a &&& 0x7FFFFFFF#32)
  | 0x0C => z (fneg a)
  | _ => none

def fpuOne (fn : Nat) : Bool := decide (fn = 4) || (decide (7 ≤ fn) && decide (fn ≤ 0x0C))

/-! ### Shared shapes -/

/-- A result that is poisoned if a source is (R191). -/
def result (s : State) (j : Job) (gd : Nat) (v : Word) (pois : Bool) : Eff := .next s (j.setReg gd v pois)

/-- A format B instruction gd = g(ga, imm). -/
def State.immOp (s : State) (slot : Nat) (f : BitVec 26) (legal : Bool) (g : Word → Option Word) : State :=
  s.issue slot f (legal && (g 0).isSome) (guardB f) [fGA f] [fGD f] fun s j =>
    result s j (fGD f) ((g (j.val (fGA f))).getD 0) (j.reg (fGA f)).pois

/-! ### Instructions -/

def execAlu (t : Stamp) (slot : Fin 64) (f : BitVec 26) (x : BitVec 32) (s : State) : Out :=
  let fn := fFN f
  let legal := (aluFn fn 0 0).isSome && gbOk f && (decide (fn < 0x0D) || oneOp f)
  .next ((s.upTo t (kSub 5)).issue slot f legal (guardA f) [fGA f, fGB f] [fGD f] fun s j =>
    let a := j.reg (fGA f)
    let b := j.op2 f x
    result s j (fGD f) ((aluFn fn a.val b.val).getD 0) (a.pois || b.pois))

def execAddi (t : Stamp) (slot : Fin 64) (f : BitVec 26) (x : BitVec 32) (s : State) : Out :=
  .next ((s.upTo t (kSub 5)).immOp slot f true fun a => some (a + immB f x))

def execAndi (t : Stamp) (slot : Fin 64) (f : BitVec 26) (x : BitVec 32) (s : State) : Out :=
  .next ((s.upTo t (kSub 5)).immOp slot f true fun a => some (a &&& immB f x))

def execOri (t : Stamp) (slot : Fin 64) (f : BitVec 26) (x : BitVec 32) (s : State) : Out :=
  .next ((s.upTo t (kSub 5)).immOp slot f true fun a => some (a ||| immB f x))

def execXori (t : Stamp) (slot : Fin 64) (f : BitVec 26) (x : BitVec 32) (s : State) : Out :=
  .next ((s.upTo t (kSub 5)).immOp slot f true fun a => some (a ^^^ immB f x))

def execShi (t : Stamp) (slot : Fin 64) (f : BitVec 26) (_x : BitVec 32) (s : State) : Out :=
  .next ((s.upTo t (kSub 5)).immOp slot f (!fX f) (shiFn (fIMM f)))

def execMuldiv (t : Stamp) (slot : Fin 64) (f : BitVec 26) (x : BitVec 32) (s : State) : Out :=
  let fn := fFN f
  .next ((s.upTo t (kSub 5)).issue slot f ((muldivFn fn 0 0).isSome && gbOk f) (guardA f) [fGA f, fGB f] [fGD f] fun s j =>
    let a := j.reg (fGA f)
    let b := j.op2 f x
    result s j (fGD f) ((muldivFn fn a.val b.val).getD 0) (a.pois || b.pois))

def execLi (t : Stamp) (slot : Fin 64) (f : BitVec 26) (x : BitVec 32) (s : State) : Out :=
  .next ((s.upTo t (kSub 5)).issue slot f (decide (fGA f = 0)) (guardB f) [] [fGD f] fun s j =>
    result s j (fGD f) (immB f x) false)

def execLih (t : Stamp) (slot : Fin 64) (f : BitVec 26) (x : BitVec 32) (s : State) : Out :=
  .next ((s.upTo t (kSub 5)).issue slot f (decide (fGA f = 0)) (guardB f) [fGD f] [fGD f] fun s j =>
    let d := j.reg (fGD f)
    result s j (fGD f) (pack 64 [(0, fld d.val 0 32), (32, fld (immB f x) 0 32)]) d.pois)

def execExtr (t : Stamp) (slot : Fin 64) (f : BitVec 26) (_x : BitVec 32) (s : State) : Out :=
  .next ((s.upTo t (kSub 5)).immOp slot f (!fX f) (extrFn (fIMM f)))

def execCmp (t : Stamp) (slot : Fin 64) (f : BitVec 26) (x : BitVec 32) (s : State) : Out :=
  let fn := fFN f
  .next ((s.upTo t (kSub 5)).issue slot f ((cmpFn fn 0 0).isSome && gbOk f && decide (fGD f < 8)) (guardA f) [fGA f, fGB f] [] fun s j =>
    let a := j.reg (fGA f)
    let b := j.op2 f x
    if a.pois || b.pois then .fault 0x19
    else .next s (j.setPred (fGD f) ((cmpFn fn a.val b.val).getD false)))

def execCmpi (t : Stamp) (slot : Fin 64) (f : BitVec 26) (x : BitVec 32) (s : State) : Out :=
  .next ((s.upTo t (kSub 5)).issue slot f true (guardB f) [fGA f] [] fun s j =>
    let a := j.reg (fGA f)
    if a.pois then .fault 0x19
    else .next s (j.setPred (fGD f % 8) (cmpiFn (fGD f / 8) a.val (immB f x))))

def execPlog (t : Stamp) (slot : Fin 64) (f : BitVec 26) (_x : BitVec 32) (s : State) : Out :=
  let fn := fFN f
  let legal := (plogFn fn false false).isSome && !fX f && decide (fGD f < 8) && decide (fGA f < 8) && decide (fGB f < 8) &&
    (decide (fn ≠ 4) || decide (fGB f = 0))
  .next ((s.upTo t (kSub 5)).issue slot f legal (guardA f) [] [] fun s j =>
    .next s (j.setPred (fGD f) ((plogFn fn (j.pred (fGA f)) (j.pred (fGB f))).getD false)))

def execFpu (t : Stamp) (slot : Fin 64) (f : BitVec 26) (x : BitVec 32) (s : State) : Out :=
  let fn := fFN f
  let legal := decide (fn ≤ 0x0C) && gbOk f && (!fpuOne fn || oneOp f)
  .next ((s.upTo t (kSub 5)).issue slot f legal (guardA f) [fGA f, fGB f] [fGD f] fun s j =>
    let a := j.reg (fGA f)
    let b := j.op2 f x
    result s j (fGD f) ((fpuFn fn a.val (BitVec.ofNat 32 b.val.toNat)).getD 0) (a.pois || b.pois))

def execFcmp (t : Stamp) (slot : Fin 64) (f : BitVec 26) (x : BitVec 32) (s : State) : Out :=
  let fn := fFN f
  .next ((s.upTo t (kSub 5)).issue slot f (decide (fn < 4) && gbOk f && decide (fGD f < 8)) (guardA f) [fGA f, fGB f] [] fun s j =>
    let a := j.reg (fGA f)
    let b := j.op2 f x
    if a.pois || b.pois then .fault 0x19
    else .next s (j.setPred (fGD f)
      ((fcmpFn fn (BitVec.ofNat 32 a.val.toNat) (BitVec.ofNat 32 b.val.toNat)).getD false)))

end Sys2Proof.Machine
end

