-- ==== Sys2Proof/Machine/Trees.lean ====
section
/-! DEFINITION. Trees.lean: what FEATURE and TREE calls compute (06 R113-R120, R123-R129): plans, bins, accumulators, trees,
votes and link output. -/

namespace Sys2Proof.Machine

/-! ### Feature plans (R113, R114) -/

structure Plan where
  nfeat : Nat
  nacc  : Nat
  nraw  : Nat
  feats : Nat
  accs  : Nat
  cuts  : Nat
  ncutw : Nat
deriving DecidableEq, Repr

def State.plan (s : State) (a : Nat) : Plan :=
  let w := s.rd64 a
  ⟨fld w 0 13, fld w 13 7, fld w 20 13, fld (s.rd64 (a + 8)) 0 40, fld (s.rd64 (a + 16)) 0 40, fld (s.rd64 (a + 24)) 0 40,
    fld (s.rd64 (a + 32)) 0 21⟩

/-- The record stride of a plan (R120). -/
def Plan.stride (p : Plan) : Nat := (p.nfeat + 63) / 64 * 64

structure Feat where
  kind   : Nat
  src0   : Nat
  src1   : Nat
  src2   : Nat
  nsrc   : Nat
  ncut   : Nat
  card   : Nat
  seed   : Nat
  a      : F32
  b      : F32
  cutidx : Nat
deriving DecidableEq, Repr

def State.feat (s : State) (p : Plan) (i : Nat) : Feat :=
  let w := s.rd64 (p.feats + 32 * i)
  let x := s.rd64 (p.feats + 32 * i + 8)
  { kind := fld w 0 3, src0 := fld w 3 12, src1 := fld w 15 12, src2 := fld w 27 12, nsrc := fld w 39 2, ncut := fld w 41 8
    card := fld w 49 8, seed := fld w 57 6, a := BitVec.ofNat 32 (fld x 0 32), b := BitVec.ofNat 32 (fld x 32 32)
    cutidx := fld (s.rd64 (p.feats + 32 * i + 16)) 0 20 }

/-- hcat of R117. -/
def hcat (card seed key : Nat) : Nat :=
  let h := key * (0x9e3779b1 + 2 * seed) % 2 ^ 32
  (h / 65536 * card) / 65536

/-- The byte of a numeric feature (R116); a missing input is `none`. -/
def numByte (f : Feat) (cuts : List F32) (x : Option F32) : Nat :=
  match x with
  | none => 255
  | some x =>
    if isNan x then 255
    else
      let y := fadd (fmul x f.a) f.b
      if isNan y then 255 else (cuts.filter fun c => ordKey c ≤ ordKey y).length

/-! ### Accumulators (R118, R119) -/

/-- Operation and raw index of accumulator a. -/
def State.accDesc (s : State) (p : Plan) (a : Nat) : Nat × Nat :=
  let w := s.rd64 (p.accs + 8 * a)
  (fld w 0 2, fld w 2 12)

def Accum.init : Accum := ⟨0, 0⟩

/-- One update (R119). -/
def Accum.step (a : Accum) (op : Nat) (x : F32) : Accum :=
  if isNan x || isNan a.value then a
  else
    let n := min (a.n + 1) (2 ^ 32 - 1)
    let v :=
      if op = 0 then fadd a.value x
      else if op = 1 then (if n = 1 ∨ ordKey x > ordKey a.value then x else a.value)
      else if op = 2 then (if n = 1 ∨ ordKey x < ordKey a.value then x else a.value)
      else a.value
    ⟨v, n⟩

/-- The input of an ACC feature (R119). -/
def Accum.input (a : Accum) (op : Nat) : Option F32 :=
  if a.n = 0 ∨ isNan a.value then none else if op = 3 then some (ofInt a.n) else some a.value

/-! ### FEATURE (R116-R120) -/

structure FeatOut where
  rec'   : List Byte
  accs   : List Accum
  miss   : Nat
  poison : Bool
deriving DecidableEq, Repr

/-- The byte of feature f from the raw words, the accumulators and the earlier bytes. -/
def State.featByte (s : State) (p : Plan) (raw : List (F32 × Bool)) (accs : List Accum) (done : List Nat) (f : Feat) : Nat :=
  let x := ((raw[f.src0]?).getD (0, false)).1
  let cuts := (List.range f.ncut).map fun k => s.rd32 (p.cuts + 4 * (f.cutidx + k))
  if f.kind = 0 then numByte f cuts (some x)
  else if f.kind = 1 then
    numByte f cuts (((accs[f.src0]?).getD Accum.init).input (s.accDesc p f.src0).1)
  else if f.kind = 2 then (if x.toNat ≤ 254 then x.toNat else 255)
  else if f.kind = 3 then (if x = 0xFFFFFFFF#32 then 255 else hcat f.card f.seed x.toNat)
  else
    let b := fun j => (done[j]?).getD 255
    let b2 := if f.nsrc = 2 then 0 else b f.src2
    if b f.src0 = 255 ∨ b f.src1 = 255 ∨ (f.nsrc ≠ 2 ∧ b2 = 255) then 255
    else hcat f.card f.seed (b f.src0 + 256 * b f.src1 + 65536 * b2)

/-- The arrays of a plan: header, feature descriptors, accumulators, cut points. -/
def Plan.arrays (p : Plan) (a : Nat) : List (Nat × Nat) :=
  [(a, 64), (p.feats, 32 * p.nfeat), (p.accs, 8 * p.nacc), (p.cuts, 4 * p.ncutw)]

/-- A FEATURE call on raw words with their poison tags, from a committed accumulator state. -/
def State.featureRun (s : State) (p : Plan) (raw : List (F32 × Bool)) (accs : List Accum) (noUpd : Bool) : FeatOut :=
  let ds := (List.range p.nacc).map fun a => s.accDesc p a
  let fs := (List.range p.nfeat).map fun i => s.feat p i
  let pois := fun j => ((raw[j]?).getD (0, false)).2
  let poison := (!noUpd && ds.any fun d => pois d.2) || fs.any fun f => (f.kind = 0 || f.kind = 2 || f.kind = 3) && pois f.src0
  let accs := (List.range p.nacc).map fun a =>
    let st := (accs[a]?).getD Accum.init
    let d := (ds[a]?).getD (0, 0)
    if noUpd then st else st.step d.1 ((raw[d.2]?).getD (0, false)).1
  let bs := fs.foldl (fun done f => done ++ [s.featByte p raw accs done f]) []
  ⟨(bs.map fun b => BitVec.ofNat 8 b) ++ List.replicate (p.stride - p.nfeat) 0, accs,
    (bs.filter fun b => b = 255).length, poison⟩

/-! ### Ensembles (R123-R127) -/

structure Ens where
  ntree  : Nat
  depth  : Nat
  nclass : Nat
  plan   : Nat
  link   : Nat
  pin    : Bool
  nbmp   : Nat
  base   : F32
  trees  : Nat
  bmps   : Nat
deriving DecidableEq, Repr

def State.ens (s : State) (a : Nat) : Ens :=
  let w := s.rd64 a
  ⟨fld w 0 17, fld w 17 4, fld w 21 5, fld w 26 2, fld w 28 2, bitAt w 30, fld w 31 17,
    BitVec.ofNat 32 (fld (s.rd64 (a + 8)) 0 32), fld (s.rd64 (a + 16)) 0 40, fld (s.rd64 (a + 24)) 0 40⟩

/-- The arrays of an ensemble. -/
def Ens.arrays (e : Ens) : List (Nat × Nat) := [(e.trees, e.ntree * 2 ^ (e.depth + 3)), (e.bmps, 32 * e.nbmp)]

def State.treeWord (s : State) (e : Ens) (t i : Nat) : BitVec 32 := s.rd32 (e.trees + t * 2 ^ (e.depth + 3) + 4 * i)

/-- The branch of one node (R127). -/
def State.goesLeft (s : State) (e : Ens) (rec' : List Byte) (n : BitVec 32) : Bool :=
  let b := ((rec'[fld n 0 12]?).getD 0).toNat
  if b = 255 then bitAt n 13
  else if bitAt n 12 then bitAt (memGet s.mem.bytes (e.bmps + 32 * fld n 14 16 + b / 8)) (b % 8)
  else decide (b < fld n 14 8)

def State.treeWalk (s : State) (e : Ens) (t : Nat) (rec' : List Byte) : Nat → Nat → BitVec 32
  | 0, i => s.treeWord e t i
  | k + 1, i => s.treeWalk e t rec' k (2 * i + nb (!s.goesLeft e rec' (s.treeWord e t i)))

/-- The leaves that a record reaches. -/
def State.leaves (s : State) (e : Ens) (rec' : List Byte) : List (BitVec 32) :=
  (List.range e.ntree).map fun t => s.treeWalk e t rec' e.depth 1

/-! ### Votes and links (R128, R129) -/

structure VoteOut where
  bytes : List Byte
  tie   : Bool
  none' : Bool
deriving DecidableEq, Repr

def voteOut (nclass : Nat) (ls : List (BitVec 32)) : VoteOut :=
  let tal := (List.range nclass).map fun c => (ls.filter fun l => fld l 16 8 = c).foldl (fun a l => a + fld l 24 8) 0
  let best := tal.foldl max 0
  let win := tal.findIdx fun v => v = best
  let tie := decide ((tal.filter fun v => v = best).length > 1)
  let total := tal.foldl (· + ·) 0
  let w : Word := pack 64 [(0, win), (8, best), (32, total), (56, nb tie), (57, nb (decide (total = 0)))]
  ⟨leBytes 8 w.toNat ++ tal.flatMap fun v => leBytes 4 v, tie, decide (total = 0)⟩

/-- binary16 read exactly (R129). -/
def halfVal (h : Nat) : FV :=
  let ex := h / 1024 % 32
  let fr := h % 1024
  let neg := decide (h / 32768 % 2 = 1)
  if ex = 31 then (if fr = 0 then .inf neg else .nan)
  else if ex = 0 then .fin neg fr (-24)
  else .fin neg (fr + 1024) ((ex : Int) - 25)

def linkOut (e : Ens) (ls : List (BitVec 32)) : List Byte :=
  let ms := (List.range e.nclass).map fun c =>
    xsum (fVal e.base :: (ls.filter fun l => fld l 16 8 = c).map fun l => halfVal (fld l 0 16))
  let out := if e.link = 1 then ms.map sigmoid else if e.link = 2 then softmax ms else ms
  let bs := out.flatMap fun x => leBytes 4 x.toNat
  bs ++ List.replicate ((8 - bs.length % 8) % 8) 0

/-- Bytes one record gives: votes padded to a multiple of 8 (10 R225). -/
def voteBytes (v : VoteOut) : List Byte := v.bytes ++ List.replicate ((8 - v.bytes.length % 8) % 8) 0

def recSize (nclass : Nat) (link : Bool) : Nat :=
  ((if link then 4 * nclass else 8 + 4 * nclass) + 7) / 8 * 8

end Sys2Proof.Machine
end

