-- ==== Sys2Proof/Machine/Calls.lean ====
section
/-! DEFINITION. Calls.lean: the operands of the engine calls (10 R224-R228): parameter blocks, their checks, and the scratch areas
a call reads and writes; and the issue of MATCH, XLATE, FEATURE, TREE, CLASSIFY and WAIT. -/

namespace Sys2Proof.Machine

/-! ### Parameter blocks (R225) -/

def Call.key (c : Call) : Nat :=
  match c.op with
  | .matchOp => fld c.w0 0 3
  | .xlate => fld c.w0 0 2
  | .feature => fld c.w0 0 2
  | .tree => fld c.w0 0 3
  | .classify => fld c.w0 0 2

/-- CAP, NREC or NTOK. -/
def Call.num (c : Call) : Nat :=
  match c.op with
  | .matchOp => fld c.w0 3 14
  | .xlate => fld c.w0 2 15
  | .feature => 1
  | .tree => fld c.w0 3 7
  | .classify => fld c.w0 2 11

/-- RAW or IN. -/
def Call.inA (c : Call) : Nat := fld c.w0 16 16
def Call.seg (c : Call) : Nat := fld c.w1 0 32

/-- Ranges and reserved bits of the block (R225). -/
def Call.blockOk (c : Call) : Bool :=
  match c.op with
  | .matchOp => reservedZero c.w0 [(0, 3), (3, 14)] && reservedZero c.w1 [(0, 32)] && decide (1 ≤ c.num) && decide (c.num ≤ 8192)
  | .xlate => reservedZero c.w0 [(0, 2), (2, 15)] && reservedZero c.w1 [(0, 32)] && decide (1 ≤ c.num) && decide (c.num ≤ 16384)
  | .feature => reservedZero c.w0 [(0, 2), (16, 16)] && reservedZero c.w1 [(0, 32)] && decide (c.inA % 4 = 0)
  | .tree => reservedZero c.w0 [(0, 3), (3, 7), (16, 16)] && decide (c.w1 = 0) && decide (1 ≤ c.num) && decide (c.num ≤ 64) &&
      decide (c.inA % 64 = 0)
  | .classify => reservedZero c.w0 [(0, 2), (2, 11), (16, 16)] && reservedZero c.w1 [(0, 32)] && decide (1 ≤ c.num) &&
      decide (c.num ≤ 1024) && decide (c.inA % 4 = 0)

/-! ### What the key names in the epoch -/

def State.jobEpoch (s : State) (j : Job) : Option Epoch := s.epochOf (s.entry (hIdx j.handle))

/-- The header address of the call's object; none if the index names nothing. -/
def Call.obj (c : Call) (ep : Epoch) : Option Nat :=
  let named := fun (l : List Nat) => match l[c.key]? with
    | some a => if a = 0 then none else some a
    | none => none
  match c.op with
  | .matchOp => named ep.psets
  | .xlate => (ep.tvocab[c.key]?).getD none
  | .feature => named ep.plans
  | .tree => named ep.ens
  | .classify => named ep.models

/-- The record stride of an ensemble's plan. -/
def State.ensStride (s : State) (ep : Epoch) (e : Ens) : Nat := (s.plan ((ep.plans[e.plan]?).getD 0)).stride

/-- Sizes of the input and output areas (R225, R226). -/
def State.callSizes (s : State) (ep : Epoch) (c : Call) : Option (Nat × Nat) :=
  if !c.blockOk then none
  else (c.obj ep).map fun a =>
    match c.op with
    | .matchOp => (0, 8 * c.num)
    | .xlate => (0, 4 * c.num)
    | .feature => (4 * (s.plan a).nraw, (s.plan a).stride)
    | .tree =>
      let e := s.ens a
      (c.num * s.ensStride ep e, c.num * recSize e.nclass c.fl0)
    | .classify => (4 * c.num, 4 * (s.modelHdr a).classes)

/-- Do the areas lie wholly in job scratch? -/
def Call.fits (c : Call) (z : Nat × Nat) : Bool := decide (c.inA + z.1 ≤ 65536) && decide (c.out + z.2 ≤ 65536)

def overlap (a n b m : Nat) : Bool := decide (a < b + m) && decide (b < a + n)

/-- Input and output sizes of an outstanding call; a call that will return BADARG touches nothing. -/
def State.callAreas (s : State) (j : Job) (c : Call) : Nat × Nat :=
  match (s.jobEpoch j).bind fun ep => s.callSizes ep c with
  | some z => if c.fits z then z else (0, 0)
  | none => (0, 0)

/-- Does an outstanding call hold an access of n bytes at scratch address a (R196)? -/
def State.areaBusy (s : State) (j : Job) (a n : Nat) (store : Bool) : Bool :=
  j.calls.any fun c =>
    let z := s.callAreas j c
    overlap a n c.out z.2 || (store && overlap a n c.inA z.1)

/-! ### Issue (R224, R228) -/

/-- Is the class of a call enabled (R86, R111, R134)? -/
def State.classEn (s : State) (op : CallOp) : Bool :=
  match op with
  | .matchOp => s.txtEn
  | .xlate => s.txtEn
  | .feature => s.treFen
  | .tree => s.treEn
  | .classify => s.clsEn

/-- Are all the units that a call needs fenced (04 R65; 06 R112)? A text-tier call on an answer chunk whose view is not built
needs a view builder too. -/
def State.unitsGone (s : State) (j : Job) (op : CallOp) : Bool :=
  let noView := decide (fld s.txt.fenced 20 2 = 3) && (match s.inst j.inst with
    | some g => g.answer && s.txt.views.any fun v => decide (v.handle = j.handle) && decide (v.k = (j.val 2).toNat) && !v.built
    | none => false)
  match op with
  | .matchOp => decide (fld s.txt.fenced 0 16 = 2 ^ 16 - 1) || noView
  | .xlate => decide (fld s.txt.fenced 16 4 = 15) || noView
  | .feature => decide (s.tre.fst = 3)
  | _ => false

/-- Flags that the call defines: a mask of FL. -/
def CallOp.flags (op : CallOp) : Nat :=
  match op with
  | .matchOp => 1 | .xlate => 1 | .feature => 1 | .tree => 1 | .classify => 3

/-- The checks of R224 in order: the fault of the first that fails. A call whose units are all fenced faults as one of a class
that is not enabled (log entry 73). -/
def State.callCheck (s : State) (slot : Nat) (j : Job) (op : CallOp) (f : BitVec 26) : Option Nat :=
  let x := s.slot slot
  let a := j.reg (fGA f)
  let b := j.reg (fGB f)
  if !s.classEn op || s.unitsGone j op then some 0x0A
  else if op.cls ≠ j.cls then some 0x05
  else if a.pois || b.pois then some 0x19
  else if a.val.toNat % 8 ≠ 0 then some 0x12
  else if a.val.toNat + 16 > 65536 then some 0x13
  else if x.wordBad (a.val.toNat / 8) || x.wordBad (a.val.toNat / 8 + 1) then some 0x19
  else if op = .tree ∧ fFN f % 2 = 1 ∧ ¬ (j.dom = 0 ∧ s.treTest) then some 0x04
  else if j.calls.length ≥ 4 then some 0x1A
  else none

/-- The general registers that a call reads: the addresses of its block and output, and of a call on an answer stream, which works on
chunk g2, that one (R224). TREE works on no stream. -/
def State.callReads (s : State) (slot : Nat) (op : CallOp) (f : BitVec 26) : List Nat :=
  let answer := ((s.job slot).bind fun j => s.inst j.inst).any fun g => g.answer
  [fGA f, fGB f] ++ if answer && decide (op ≠ .tree) then [2] else []

/-- Issue an engine call: the block and the chunk number in g2 are copied, so it waits for the registers it reads (R224), and the call joins
the job's outstanding calls. -/
def State.callOp (s : State) (slot : Nat) (op : CallOp) (f : BitVec 26) : State :=
  let legal := !fX f && decide (fFN f ≤ op.flags)
  s.issue slot f legal (guardA f) (s.callReads slot op f) [fGD f] fun s j =>
    let x := s.slot slot
    let a := (j.val (fGA f)).toNat
    if s.areaBusy j a 16 false then .held
    else match s.callCheck slot j op f with
      | some c => .fault c
      | none =>
        let c : Call := ⟨j.nextCall, op, fGD f, BitVec.ofNat 64 (x.load a 8).1, BitVec.ofNat 64 (x.load (a + 8) 8).1,
          (j.val (fGB f)).toNat, bitAt f 0, bitAt f 1, (j.val 2).toNat, s.tally, none, none, false, ⟨[], none, [], 0⟩⟩
        let z := s.callAreas j c
        if j.calls.any fun d =>
            let y := s.callAreas j d
            overlap c.out z.2 d.out y.2 || overlap c.inA z.1 d.out y.2 then .held
        else .next (s.count 5 0x14 1) { j with calls := j.calls ++ [c], nextCall := j.nextCall + 1 }

def execMatchCall (t : Stamp) (slot : Fin 64) (f : BitVec 26) (_x : BitVec 32) (s : State) : Out :=
  .next ((s.upTo t (kSub 5)).callOp slot .matchOp f)

def execXlate (t : Stamp) (slot : Fin 64) (f : BitVec 26) (_x : BitVec 32) (s : State) : Out :=
  .next ((s.upTo t (kSub 5)).callOp slot .xlate f)

def execFeature (t : Stamp) (slot : Fin 64) (f : BitVec 26) (_x : BitVec 32) (s : State) : Out :=
  .next ((s.upTo t (kSub 5)).callOp slot .feature f)

def execTreeCall (t : Stamp) (slot : Fin 64) (f : BitVec 26) (_x : BitVec 32) (s : State) : Out :=
  .next ((s.upTo t (kSub 5)).callOp slot .tree f)

def execClassify (t : Stamp) (slot : Fin 64) (f : BitVec 26) (_x : BitVec 32) (s : State) : Out :=
  .next ((s.upTo t (kSub 5)).callOp slot .classify f)

/-- WAIT (R230): it issues once no call is outstanding. -/
def execWait (t : Stamp) (slot : Fin 64) (f : BitVec 26) (_x : BitVec 32) (s : State) : Out :=
  let legal := !fX f && decide (fGD f = 0) && decide (fGA f = 0) && decide (fGB f = 0) && decide (fFN f = 0)
  .next ((s.upTo t (kSub 5)).issue slot f legal (guardA f) [] [] fun s j =>
    if j.calls.isEmpty then .next s j else .held)

end Sys2Proof.Machine
end

