-- ==== Sys2Proof/Machine/LoadStore.lean ====
section
/-! DEFINITION. LoadStore.lean: loads and stores, pages and task control, branches (10 R216-R223): LD, LDS, ST, LDM, MAPW, POST,
SKIP, RDS, BR, JAL. -/

namespace Sys2Proof.Machine

/-- The line that an access through a window needs and the state cache does not hold: its block address (13 R296). -/
def State.winMiss (s : State) (j : Job) (a : Nat) : Option Nat :=
  if decide (0x10000 ≤ a) && decide (a < 0x50000) then
    (s.winRun j (a / 0x10000 - 1)).bind fun r =>
      let b := r.page + a % 0x10000
      if s.scHit (b / 64) r.owner r.gen then none else some b
  else none

/-- The dirty line that an access through a window displaces and that may not be written back (13 R287, R292). -/
def State.winLost (s : State) (j : Job) (a : Nat) : Option (Nat × SLine) :=
  if decide (0x10000 ≤ a) && decide (a < 0x50000) then
    (s.winRun j (a / 0x10000 - 1)).bind fun r => (s.scVictim ((r.page + a % 0x10000) / 64) r.owner r.gen).bind fun v =>
      if v.2.dirty && !s.lineOk v.1 v.2 then some v else none
  else none

/-- That line is discarded, and the memory port's detector trips for the request whose page holds it; none does any more where the page has
gone to another (log entry 81). The access comes again without it. -/
def State.dropLine (s : State) (v : Nat × SLine) : State :=
  let refused := !s.ownedWr v.2.owner (64 * v.1) 64
  let s := { s with mem := { s.mem with scLines := Tab.del s.mem.scLines v.1 } }
  let s := if refused then s.viol else s
  match s.lineOwner v.1 with
  | some i => s.memTrip 0 i s.tally
  | none => s

/-- An access through a window that misses the state cache and fails the region check (13 R287). -/
def State.winTrip (s : State) (j : Job) (a : Nat) (wr : Bool) : Bool :=
  match s.winMiss j a with
  | some b => !s.access j.dom b 1 wr false
  | none => false

/-- An access that misses while no request is issued waits (13 R309). -/
def State.winWaits (s : State) (j : Job) (a : Nat) : Bool := !s.mem.en && (s.winMiss j a).isSome

/-- The memory-port detector trips for the job's request (13 R287). -/
def State.jobTrip (s : State) (j : Job) (port : Nat) : State :=
  match s.live j.handle with
  | some i => s.viol.memTrip port i s.tally
  | none => s.viol

/-- A load of n bytes with the extension rule g (R216). -/
def State.loadOp (s : State) (slot : Nat) (f : BitVec 26) (x : BitVec 32) (g : Nat → Nat → Word) : State :=
  s.issue slot f true (guardB f) [fGA f] [fGD f] fun s j =>
    let n := 2 ^ fSZ f
    let b := j.reg (fGA f)
    let a := (b.val + offD f x).toNat
    if b.pois then .fault 0x19
    else if s.areaBusy j a n false || (s.winWaits j a && decide (a % n = 0)) then .held
    else if s.winTrip j a false && decide (a % n = 0) then .gone (s.jobTrip j 0)
    else match (if a % n = 0 then s.winLost j a else none) with
      | some v => .gone (s.dropLine v)
      | none => match s.loadAt slot j a n with
      | .error c => .fault c
      | .ok r => .next r.1 (j.setReg (fGD f) (g n r.2.1) r.2.2)

def execLd (t : Stamp) (slot : Fin 64) (f : BitVec 26) (x : BitVec 32) (s : State) : Out :=
  .next ((s.upTo t (kSub 5)).loadOp slot f x fun _ v => BitVec.ofNat 64 v)

def execLds (t : Stamp) (slot : Fin 64) (f : BitVec 26) (x : BitVec 32) (s : State) : Out :=
  .next ((s.upTo t (kSub 5)).loadOp slot f x fun n v => sext (8 * n) v)

def execSt (t : Stamp) (slot : Fin 64) (f : BitVec 26) (x : BitVec 32) (s : State) : Out :=
  .next ((s.upTo t (kSub 5)).issue slot f true (guardB f) [fGA f, fGD f] [] fun s j =>
    let n := 2 ^ fSZ f
    let b := j.reg (fGA f)
    let v := j.reg (fGD f)
    let a := (b.val + offD f x).toNat
    if b.pois then .fault 0x19
    else if s.areaBusy j a n true || (s.winWaits j a && decide (a % n = 0)) then .held
    else if s.winTrip j a true && decide (a % n = 0) then .gone (s.jobTrip j 0)
    else match (if a % n = 0 then s.winLost j a else none) with
      | some v => .gone (s.dropLine v)
      | none => match s.storeAt slot j a n (fld v.val 0 (8 * n)) v.pois with
      | .error c => .fault c
      | .ok r => .next r.1 r.2)

/-- LDM (R217): the request joins port 2, and the data returns by MEMORY_RESPONSE. A ninth load is held. -/
def execLdm (t : Stamp) (slot : Fin 64) (f : BitVec 26) (x : BitVec 32) (s : State) : Out :=
  .next ((s.upTo t (kSub 5)).issue slot f true (guardB f) [fGA f] [fGD f] fun s j =>
    let n := 2 ^ fSZ f
    let b := j.reg (fGA f)
    let a := (b.val + offD f x).toNat
    if b.pois then .fault 0x19
    else if a % n ≠ 0 then .fault 0x12
    else if a ≥ 2 ^ 40 ∨ s.access j.dom a n false true = false then .gone (s.viol.jobFault slot 0x18 0 s.tally)
    else if j.ldms.length ≥ 8 then .held
    else
      let p := s.port 2
      let q : MReq := ⟨false, a / 128 * 128, 0, 0, 0, .ldm slot j.nextCall j.inst⟩
      .next (s.setPort 2 { p with waitq := p.waitq ++ [q] })
        { j with ldms := j.ldms ++ [⟨j.nextCall, fGD f, a, n⟩], nextCall := j.nextCall + 1 })

def execMapw (t : Stamp) (slot : Fin 64) (f : BitVec 26) (_x : BitVec 32) (s : State) : Out :=
  let legal := !fX f && decide (fGD f = 0) && decide (fFN f = 0)
  .next ((s.upTo t (kSub 5)).issue slot f legal (guardA f) [fGA f, fGB f] [] fun s j =>
    let n := j.reg (fGA f)
    let w := j.reg (fGB f)
    if n.pois || w.pois then .fault 0x19
    else if n.val.toNat ≥ (s.entry (hIdx j.handle)).npage ∨ w.val.toNat > 3 then .fault 0x16
    else .next s { j with wins := putAt none j.wins w.val.toNat (some n.val.toNat) })

def execPost (t : Stamp) (slot : Fin 64) (f : BitVec 26) (_x : BitVec 32) (s : State) : Out :=
  let legal := !fX f && decide (fGD f = 0) && decide (fGB f = 0) && decide (fFN f = 0)
  .next ((s.upTo t (kSub 5)).issue slot f legal (guardA f) [fGA f] [] fun s j =>
    let v := j.reg (fGA f)
    if v.pois then .fault 0x19
    else .next (s.updInst j.inst fun g => { g with results := Tab.set g.results j.task v.val }) j)

/-- The tasks that a SKIP operand adds (R220). -/
def GInst.skips (g : GInst) (v : Word) : BitVec 64 :=
  v &&& ~~~g.issued &&& (BitVec.allOnes 64 >>> (64 - g.ntask)) &&& ~~~(1#64 <<< g.vtask)

def execSkipTasks (t : Stamp) (slot : Fin 64) (f : BitVec 26) (_x : BitVec 32) (s : State) : Out :=
  let legal := !fX f && decide (fGD f = 0) && decide (fGB f = 0) && decide (fFN f = 0)
  .next ((s.upTo t (kSub 5)).issue slot f legal (guardA f) [fGA f] [] fun s j =>
    let v := j.reg (fGA f)
    if v.pois then .fault 0x19
    else match s.inst j.inst with
      | none => .next s j
      | some g =>
        let k := g.skips v.val
        let s := s.setInst j.inst { g with skip := g.skip ||| k }
        let s := { s with dsp := { s.dsp with
          ready := s.dsp.ready.filter fun r => !(decide (r.inst = j.inst) && bitAt k r.task)
          resolve := s.dsp.resolve ++ [(⟨j.inst, s.tally, k⟩ : Resolve)] } }
        .next (s.count 4 0x19 (nb (bitAt v.val g.vtask))) j)

/-- The special registers (09 R188). -/
def State.special (s : State) (slot : Nat) (j : Job) (k : Nat) : Word :=
  let e := s.entry (hIdx j.handle)
  match k with
  | 0 => j.handle.setWidth 64
  | 1 => pack 64 [(0, j.dom), (8, nb e.esel), (9, nb (s.domOf j.dom).nonenf), (16, e.epoch)]
  | 2 => BitVec.ofNat 64 s.tally
  | _ => s.jobWord slot j

def execRds (t : Stamp) (slot : Fin 64) (f : BitVec 26) (_x : BitVec 32) (s : State) : Out :=
  let legal := !fX f && decide (fGA f = 0) && decide (fGB f = 0) && decide (fFN f < 4)
  .next ((s.upTo t (kSub 5)).issue slot f legal (guardA f) [] [fGD f] fun s j =>
    result s j (fGD f) (s.special slot j (fFN f)) false)

/-- A jump target (R222, R223). -/
def Job.target (j : Job) (w : Word) : Option Nat :=
  if w.toNat % 4 = 0 ∧ w.toNat < 4 * j.nword then some w.toNat else none

def execBr (t : Stamp) (slot : Fin 64) (f : BitVec 26) (_x : BitVec 32) (s : State) : Out :=
  .next ((s.upTo t (kSub 5)).issue slot f (!fX f) (guardC f) [] [] fun s j =>
    match j.target (BitVec.ofNat 64 j.pc + (offC f <<< 2)) with
    | some p => .jump s j p
    | none => .fault 0x11)

def execJal (t : Stamp) (slot : Fin 64) (f : BitVec 26) (x : BitVec 32) (s : State) : Out :=
  let legal := gbOk f && decide (fFN f = 0)
  .next ((s.upTo t (kSub 5)).issue slot f legal (guardA f) [fGA f, fGB f] [fGD f] fun s j =>
    let a := j.reg (fGA f)
    let b := j.op2 f x
    if a.pois || b.pois then .fault 0x19
    else match j.target (a.val + b.val) with
      | some p => .jump s (j.setReg (fGD f) (BitVec.ofNat 64 (j.pc + ilen f)) false) p
      | none => .fault 0x11)

end Sys2Proof.Machine
end

