-- ==== Sys2Proof/Machine/Engines.lean ====
section
/-! DEFINITION. Engines.lean: the start and completion of engine calls (08 R173; 09 R196-R198; 10 R226-R229; 04 R81; 05 R107,
R108; 06 R119, R120, R128, R129): the commands CALL_START and CALL_COMPLETE. -/

namespace Sys2Proof.Machine

/-! ### Inputs of a text-tier or FEATURE call (R198) -/

def segSize : Nat := 32768

/-- Segments of a prompt view. -/
def Entry.segs (e : Entry) : Nat := (e.req.pview + (segSize - 1)) / segSize

/-- Is the whole prompt known: LAST captured, or a re-screen's copy? -/
def promptWhole (e : Entry) (g : GInst) : Bool := e.plast || g.screen

def segReady (e : Entry) (g : GInst) (n : Nat) : Bool := decide ((n + 1) * segSize ≤ e.req.pview) || promptWhole e g
def noSeg (e : Entry) (g : GInst) (n : Nat) : Bool := promptWhole e g && decide (e.segs ≤ n)

/-- What a call works on: bytes, their token offsets, CIN, whether they end the stream. -/
structure Input where
  bytes : List Byte
  src   : List (Option Nat)
  cin   : Nat
  final : Bool
deriving DecidableEq, Repr

/-- The prompt segment n of entry i. -/
def State.segInput (s : State) (i n : Nat) (g : GInst) : Input :=
  let e := s.entry i
  let len := min segSize (e.req.pview - n * segSize)
  ⟨(s.rdArea (areaPages (s.runs e.plist e.npage) 1 0) (n * segSize) len).map fun b => b.getD 0, [], 0,
    promptWhole e g && decide (e.segs ≤ n + 1)⟩

def State.viewOf (s : State) (h : Handle) (k : Nat) : Option View :=
  s.txt.views.find? fun v => decide (v.handle = h) && decide (v.k = k)

def View.input (v : View) : Input := ⟨v.bytes, v.src, v.cin, v.final⟩

/-- The chunk or segment number of a call. -/
def Call.num' (c : Call) (g : GInst) : Nat := if g.answer then c.k else c.seg

/-! ### Committed state of a key, and RESTART (R81, R107, R119) -/

def Req.text (r : Req) (answer : Bool) : TextState := if answer then r.atext else r.ptext

def accIdx (answer : Bool) (plan : Nat) : Nat := 4 * nb answer + plan

/-- SEQ of the state a call follows; none where the call follows none. -/
def State.seqOf (s : State) (i : Nat) (g : GInst) (c : Call) : Option (Option Nat) :=
  let r := (s.entry i).req
  match c.op with
  | .matchOp => some (((r.text g.answer).pats[c.key]?).bind fun p => p.seq)
  | .xlate => some (((r.text g.answer).carries[c.key]?).bind fun p => p.seq)
  | .feature => some ((Tab.get r.acc (accIdx g.answer c.key)).bind fun a => a.seq)
  | .classify => if c.fl0 then none else some ((r.kv[c.key]?).bind fun x => x.seq)
  | .tree => none

/-- Does a SEQ precede number k? -/
def seqOk (q : Option Nat) (k : Nat) : Bool := if k = 0 then q.isNone else decide (q = some (k - 1))

/-- The open pass of a top instance that a call continues (R227): of the same job for MATCH and XLATE, of the same instance for
CLASSIFY. -/
def GInst.passOf (g : GInst) (inst task : Nat) (c : Call) : Option Pass :=
  match c.op with
  | .matchOp => if c.fl0 then find 0 else none
  | .xlate => if c.fl0 then find 1 else none
  | .classify => g.passes.find? fun p => decide (p.op = 2) && decide (p.key = c.key) && (p.spec == c.fl0)
  | _ => none
where
  find (o : Nat) : Option Pass :=
    g.passes.find? fun p => decide (p.inst = inst) && decide (p.task = task) && decide (p.op = o) && decide (p.key = c.key) &&
      decide (p.seg = c.num' g)

/-- Is a call held back by the commit rule: chunk k − 1 is still being processed (R81)? -/
def State.waitsCommit (s : State) (i : Nat) (g : GInst) (inst task : Nat) (c : Call) : Bool :=
  let k := c.num' g
  match s.seqOf i g c with
  | none => false
  | some q =>
    g.answer && !seqOk q k && decide (k > 0) && (g.passOf inst task c).isNone &&
      (s.graphRuns g.handle true (k - 1) || s.graphWaits g.handle true (k - 1))

/-! ### CALL_START (R173, R229) -/

/-- A call in a class's queue, with the top instance of its job. -/
structure Queued where
  slot : Nat
  job  : Job
  call : Call
  inst : GInst
  idx  : Nat
deriving DecidableEq, Repr

/-- May the call start as far as its inputs are concerned? -/
def State.inputsReady (s : State) (q : Queued) : Bool :=
  let e := s.entry q.idx
  let n := q.call.num' q.inst
  match q.call.op with
  | .tree => true
  | .classify =>
    !s.waitsCommit q.idx q.inst q.job.inst q.job.task q.call &&
      !(s.pil.slots.any fun p => match p.2.job with
        | some j => decide (j.handle = q.job.handle) && j.calls.any fun c =>
            decide (c.op = .classify) && decide (c.key = q.call.key) &&
              (c.started.isSome || decide (c.issued < q.call.issued) || (decide (c.issued = q.call.issued) && decide (p.1 < q.slot)))
        | none => false)
  | _ =>
    !s.waitsCommit q.idx q.inst q.job.inst q.job.task q.call &&
      if q.inst.answer && decide (q.call.op = .feature) then true
      else if q.inst.answer then
        match s.viewOf q.job.handle n with
        | some v => v.built
        | none => true
      else segReady e q.inst n

/-- The engine that serves a number: its own, or the spare once its swap has ended (06 R122). -/
def State.treeUnit (s : State) (n : Nat) : Option Nat :=
  if !bitAt s.tre.fenced n then some n
  else if s.tre.spare = some n ∧ bitAt s.tre.fenced 8 = false ∧
      (s.wch.swaps.any fun x => decide (x.kind = 2) && decide (x.num = n)) = false then some 8
  else none

/-- The physical units of an operation, in the order of their numbers. DESIGN CHOICE: with all 34 tiles fenced a CLASSIFY has none; it
issues and waits, since R89 names no fault for it (log entry 104). -/
def State.unitsOf (s : State) (op : CallOp) : List Nat :=
  match op with
  | .matchOp => (List.range 16).filter fun n => !bitAt s.txt.fenced n
  | .xlate => ((List.range 4).map fun n => 16 + n).filter fun n => !bitAt s.txt.fenced n
  | .feature => ((List.range 2).filter fun n => !bitAt s.tre.fst n).map fun n => 16 + n
  | .tree => (List.range 8).filterMap fun n => s.treeUnit n
  | .classify => if s.cls.fenced = BitVec.allOnes 34 then [] else [0]

/-- Calls that occupy units: of jobs, and of jobs that are gone. -/
def State.onUnits (s : State) : List Call :=
  (s.pil.slots.flatMap fun p => match p.2.job with
    | some j => j.calls.filter fun c => c.started.isSome
    | none => []) ++ s.dsp.orphans.map fun o => o.call

/-- The lowest-numbered free unit for an operation. -/
def State.freeUnit (s : State) (op : CallOp) : Option Nat :=
  let busy := (s.onUnits.filter fun c => c.op.cls = op.cls).filterMap fun c => c.started.map fun x => x.2
  (s.unitsOf op).find? fun n => !busy.contains n

/-- The queue of a class at t: issued at least 2 MCLK before, eligible, inputs ready, a unit free. -/
def State.callQueue (s : State) (cls : Nat) (t : Stamp) : List Queued :=
  s.pil.slots.flatMap fun p => match p.2.job with
    | none => []
    | some j =>
      match s.rootInst j.inst with
      | none => []
      | some g =>
        (j.calls.filter fun c => c.op.cls = cls && c.started.isNone && decide (c.issued + 4 ≤ t) &&
            decide (s.elig cls j.dom j.elastic t ≠ .no) && (s.freeUnit c.op).isSome &&
            s.inputsReady ⟨p.1, j, c, g, hIdx j.handle⟩).map fun c => ⟨p.1, j, c, g, hIdx j.handle⟩

/-- The order of R167 with the issue stamp and the job slot (R173). -/
def callKey (s : State) (cls : Nat) (t : Stamp) (q : Queued) : Nat × Nat × Nat × Nat × Nat :=
  (if s.elig cls q.job.dom q.job.elastic t = .owner then 0 else 1, 15 - q.job.prio, q.call.issued, q.idx, q.slot)

/-- Replace a call of a job. -/
def Job.updCall (j : Job) (id : Nat) (f : Call → Call) : Job :=
  { j with calls := j.calls.map fun c => if c.id = id then f c else c }

/-- The counter of a restart: text tier, classifier, accumulators. -/
def CallOp.restartEvent (op : CallOp) : Nat × Nat :=
  match op with
  | .classify => (8, 0x13)
  | .feature => (9, 0x12)
  | _ => (7, 0x16)

/-- The committed state that a call works from (R81, R107, R119). -/
def State.baseOf (s : State) (i : Nat) (g : GInst) (c : Call) : CallBase :=
  let r := (s.entry i).req
  let k := c.key
  ⟨(((r.text g.answer).carries[k]?).map fun q => q.bytes).getD [], ((r.text g.answer).pats[k]?).bind fun q => q.state,
    ((Tab.get r.acc (accIdx g.answer k)).map fun y => y.accs).getD [], ((r.kv[k]?).map fun y => y.len).getD 0⟩

/-- A restart is counted; a classification restarts with an empty context, KV_LEN 0 (R107). -/
def State.restartCall (s : State) (i : Nat) (c : Call) : State :=
  let s := s.count c.op.restartEvent.1 c.op.restartEvent.2 1
  if c.op = .classify then s.updReq i fun r => { r with kv := updAt r.kv c.key fun y => { y with len := 0, fin := 0 } } else s

/-- The input of a text call; none: the chunk has no view (log entry 22). -/
def State.textInput (s : State) (i : Nat) (g : GInst) (c : Call) : Option Input :=
  if g.answer then (s.viewOf g.handle c.k).map View.input else some (s.segInput i c.seg g)

/-- N_TOK of the vocabulary that a model's tokens come from (10 R226). -/
def State.modelTokens (s : State) (ep : Epoch) (m : ModelHdr) : Nat :=
  fld (s.rd64 (s.vslot (((ep.tvocab[m.tv]?).getD none).getD 0)).base) 0 19

/-- The tokens of a CLASSIFY call. -/
def Call.tokens (c : Call) (x : Slot) : List Nat := (List.range c.num).map fun n => (x.load (c.inA + 4 * n) 4).1 % 2 ^ 18

/-- Does a call return BADARG (R226): no object, a block or area out of range, a chunk without a view (log entry 22), CONT with nothing to
continue, a token not below N_TOK? A poisoned input word comes first. -/
def State.callBad (s : State) (i slot : Nat) (j : Job) (g : GInst) (c : Call) : Bool :=
  match s.jobEpoch j with
  | none => true
  | some ep =>
    match c.obj ep, s.callSizes ep c with
    | some a, some z =>
      let noPass := c.fl0 && (g.passOf j.inst j.task c).isNone
      !c.fits z || (match c.op with
        | .matchOp => (s.textInput i g c).isNone || noPass
        | .xlate => (s.textInput i g c).isNone || noPass
        | .classify => !(s.slot slot).anyBad c.inA (4 * c.num) &&
            (c.tokens (s.slot slot)).any fun v => decide (v ≥ s.modelTokens ep (s.modelHdr a))
        | _ => false)
    | _, _ => true

/-- Start a call on a unit: it reads the committed state now. A CLASSIFY that continues an open pass goes on from the position that it
reached (R227). One that does not continue a pass starts from the initial state when SEQ does not precede it; a call that returns BADARG
changes nothing (R226). -/
def State.startCall (s : State) (q : Queued) (unit : Nat) (t : Stamp) : State :=
  let p := q.inst.passOf q.job.inst q.job.task q.call
  let restart := p.isNone && !s.callBad q.idx q.slot q.job q.inst q.call && match s.seqOf q.idx q.inst q.call with
    | some x => !seqOk x (q.call.num' q.inst)
    | none => false
  let base := if restart then ⟨[], none, [], 0⟩ else s.baseOf q.idx q.inst q.call
  let base := match p with
    | some x => if x.op = 2 then { base with kv := x.pos } else base
    | none => base
  let s := if restart then s.restartCall q.idx q.call else s
  s.setJob q.slot (some (q.job.updCall q.call.id fun c => { c with started := some (t, unit), restart := restart, base := base }))

/-- Subsystem of a class (R10): Pilot cores, classifier, tree engines with their front stage, text tier. -/
def clsSub (n : Nat) : Nat := if n = 0 then 5 else if n = 1 then 8 else if n = 2 then 9 else 7

def execCallStart (t : Stamp) (cls : Fin 4) (s : State) : Out :=
  let s := s.upTo t (kSub (clsSub cls.val))
  let u := s.tally
  if !s.running then .next s
  else match firstBy (callKey s cls u) (s.callQueue cls u) with
    | none => .next s
    | some q =>
      match s.freeUnit q.call.op with
      | none => .next s
      | some n => .next (s.startCall q n u)

/-! ### What a call computes -/

/-- The outcome of a call: a job fault (9: a failed check of 13 R287 or R292, whose detector trips), or the state, output, CODE, SPECIFIC and COUNT, and the instance after it. -/
inductive CallOut where
  | fault (s : State) (cause : Nat)
  | skew  (s : State) (bytes : List (Byte × Bool)) (spec count : Nat)   -- delivered, and then the job faults (05 R94)
  | done  (s : State) (g : GInst) (bytes : List Byte) (code spec count : Nat)

def badArg (s : State) (g : GInst) : CallOut := .done s g [] 0x10 0 0

/-- Record a state to commit: the last complete pass of a key counts. -/
def GInst.addWork (g : GInst) (w : Work) (same : Work → Bool) : GInst :=
  { g with work := (g.work.filter fun x => !same x) ++ [w] }

/-- Commit one reached state with its SEQ (R81, R107, R119). -/
def State.commit (s : State) (i : Nat) (answer : Bool) (k : Nat) (w : Work) : State :=
  let onText := fun (f : TextState → TextState) => s.updReq i fun r =>
    if answer then { r with atext := f r.atext } else { r with ptext := f r.ptext }
  match w with
  | .carry n bs => onText fun x => { x with carries := updAt x.carries n fun _ => ⟨bs, some k⟩ }
  | .pat n st => onText fun x => { x with pats := updAt x.pats n fun _ => ⟨some st, some k⟩ }
  | .acc p as => s.updReq i fun r => { r with acc := Tab.set r.acc (accIdx answer p) ⟨as, some k⟩ }
  | .kv m n => s.updReq i fun r => { r with kv := updAt r.kv m fun _ => ⟨n, n, some k⟩ }

/-- A pass reached the end of its input: an answer's state waits for the graph's end, a prompt segment's commits now (R81). -/
def State.reach (s : State) (i : Nat) (g : GInst) (k : Nat) (w : Work) (same : Work → Bool) : State × GInst :=
  if g.answer then (s, if k = g.k then g.addWork w same else g) else (s.commit i false k w, g.addWork w same)

/-- Put or drop the partial pass of a job (R227). -/
def GInst.setPass (g : GInst) (inst task op : Nat) (p : Option Pass) : GInst :=
  { g with passes :=
      (g.passes.filter fun x => !(decide (x.inst = inst) && decide (x.task = task) && decide (x.op = op))) ++ p.toList }

/-- Is the input of a text call readable: its segment of the prompt view, or its view slot (13 R287, R292)? -/
def State.textReads (s : State) (i : Nat) (g : GInst) (c : Call) : Bool :=
  if g.answer then
    ((s.viewOf g.handle c.k).bind fun v => v.slot).all fun n => s.areaOk (s.txt.viewBase + n * frameSize) frameSize
  else
    let e := s.entry i
    s.areaReads e.dom (areaPages (s.runs e.plist e.npage) 1 0) (c.seg * segSize) (min segSize (e.req.pview - c.seg * segSize))

/-- A read of a text call that fails its check (13 R287, R292): a view slot's, or a segment's. -/
def State.textBad (s : State) (i : Nat) (g : GInst) (c : Call) : CallOut :=
  let e := s.entry i
  .fault (if g.answer then s.viol
    else s.areaFail e.dom (areaPages (s.runs e.plist e.npage) 1 0) (c.seg * segSize) (min segSize (e.req.pview - c.seg * segSize))) 9

/-- The tables that a pattern set and a target vocabulary name, as far as their headers give their sizes (04 R66-R69, R78). -/
def State.patArrays (s : State) (a : Nat) : List (Nat × Nat) :=
  let w := s.rd64 a
  let ns := fld w 0 24
  [(a, 320), (fld (s.rd64 (a + 8)) 0 40, 4 * (ns * fld w 24 9)), (fld (s.rd64 (a + 16)) 0 40, 8 * ns)]
def State.vocArrays (s : State) (a : Nat) : List (Nat × Nat) :=
  [(a, 64), (fld (s.rd64 (a + 32)) 0 40, 64 * fld (s.rd64 a) 19 24)]

/-- The job whose call runs: its instance, its task and its slot. -/
structure Caller where
  inst : Nat
  task : Nat
  slot : Nat
deriving DecidableEq, Repr

/-- MATCH (04 R79, R81; 10 R227). -/
def State.runMatch (s : State) (i : Nat) (w : Caller) (g : GInst) (c : Call) (a : Nat) : CallOut :=
  match s.textInput i g c with
  | none => badArg s g
  | some x =>
    let k := c.num' g
    let p := g.passOf w.inst w.task c
    if !s.textReads i g c then s.textBad i g c
    else if !s.readsOk (s.entry i).dom (s.patArrays a) then .fault s.viol 9
    else
      let st0 := match p with
        | some q => q.state
        | none => c.base.pat.getD (fld (s.rd64 a) 33 24)
      let from' := (p.map fun q => q.pos).getD 0
      let r := s.matchRun a x.bytes 0 st0
      let recs := (r.1.drop from').take c.num
      let out := recs.flatMap fun m => leBytes 8 (matchRecord (!g.answer) x.cin x.src m).toNat
      if recs.length ≥ c.num then
        .done s (g.setPass w.inst w.task 0 (some ⟨w.inst, w.task, 0, c.key, k, c.restart || (p.map fun q => q.spec).getD false,
          from' + recs.length, st0, []⟩)) out 1 0 recs.length
      else
        let q := s.reach i (g.setPass w.inst w.task 0 none) k (.pat c.key r.2) fun w => match w with
          | .pat n _ => decide (n = c.key)
          | _ => false
        .done q.1 q.2 out 0 (nb x.final) recs.length

/-- XLATE (04 R76, R77, R81; 10 R227). -/
def State.runXlate (s : State) (i : Nat) (w : Caller) (g : GInst) (c : Call) (vs : Nat) : CallOut :=
  match s.textInput i g c with
  | none => badArg s g
  | some x =>
    let k := c.num' g
    let p := g.passOf w.inst w.task c
    if !s.textReads i g c then s.textBad i g c
    else if !s.readsOk (s.entry i).dom (s.vocArrays (s.vslot vs).base) then .fault s.viol 9
    else
      let carry := (p.map fun q => q.carry).getD c.base.carry
      let from' := (p.map fun q => q.pos).getD 0
      let inp := carry ++ x.bytes
      let r := s.xlateRun (s.vslot vs).base x.final (inp.length + 1) inp 0
      let src := fun (o : Nat) => if o < carry.length then none else (x.src[o - carry.length]?).getD none
      let items := (r.1.drop from').take c.num
      let out := items.flatMap fun m => leBytes 4 (xEntry (!g.answer) src m).toNat
      if items.length ≥ c.num then
        .done s (g.setPass w.inst w.task 1 (some ⟨w.inst, w.task, 1, c.key, k, c.restart || (p.map fun q => q.spec).getD false,
          from' + items.length, 0, carry⟩)) out 1 0 items.length
      else
        let q := s.reach i (g.setPass w.inst w.task 1 none) k (.carry c.key r.2) fun w => match w with
          | .carry n _ => decide (n = c.key)
          | _ => false
        .done q.1 q.2 out 0 (nb x.final + 2 * r.2.length) items.length

/-- A call's look-ups in the weight cache (0), the plan cache (1) or the tree store (2): misses fill and are counted (05 R109; 06 R132;
16 R367). -/
def State.lookUp (s : State) (k owner gen : Nat) (as : List Nat) : State :=
  if k = 0 then
    ({ s with cls := { s.cls with cache := touchLines 32768 owner gen false s.cls.cache as } } : State).count 8 0x16
      (missLines 32768 owner gen s.cls.cache as)
  else if k = 1 then
    ({ s with tre := { s.tre with plan := touchLines 8192 owner gen false s.tre.plan as } } : State).count 9 0x13
      (missLines 8192 owner gen s.tre.plan as)
  else
    ({ s with tre := { s.tre with store := touchLines 8192 owner gen false s.tre.store as } } : State).count 10 0x14
      (missLines 8192 owner gen s.tre.store as)

/-- FEATURE (06 R118-R120); the plan's lines are looked up in the plan cache (R132). -/
def State.runFeature (s : State) (i : Nat) (w : Caller) (g : GInst) (ep : Epoch) (c : Call) (a : Nat) : CallOut :=
  let p := s.plan a
  if !s.readsOk (s.entry i).dom (p.arrays a) then .fault s.viol 9 else
  let k := c.num' g
  let x := s.slot w.slot
  let raw := (List.range p.nraw).map fun n =>
    (BitVec.ofNat 32 (x.load (c.inA + 4 * n) 4).1, x.wordBad ((c.inA + 4 * n) / 8))
  let s := s.lookUp 1 (s.entry i).dom ep.gen (linesBy 64 (p.arrays a))
  let o := s.featureRun p raw c.base.accs c.fl0
  if o.poison then .fault (s.count 9 0x14 1) 3
  else
    let s := (({ s with tre := { s.tre with miss := (s.tre.miss + o.miss) % 2 ^ 48 } } : State).count 9 0x10 1).count 9 0x11 o.miss
    let q := if c.fl0 then (s, g) else s.reach i g k (.acc c.key o.accs) fun w => match w with
      | .acc n _ => decide (n = c.key)
      | _ => false
    .done q.1 q.2 o.rec' 0 o.miss 1

/-- TREE (06 R127-R129); the ensemble's lines are looked up in the tree store (R132). -/
def State.runTree (s : State) (i slot : Nat) (g : GInst) (ep : Epoch) (c : Call) (a : Nat) : CallOut :=
  let e := s.ens a
  let st := s.ensStride ep e
  let x := s.slot slot
  if x.anyBad c.inA (c.num * st) then .fault s 3
  else if !s.readsOk (s.entry i).dom ((a, 64) :: e.arrays) then .fault s.viol 9
  else
    let s := s.lookUp 2 (s.entry i).dom ep.gen (linesBy 4096 e.arrays)
    let ls := (List.range c.num).map fun n => s.leaves e (x.bytes (c.inA + n * st) st)
    let s := (s.count 10 0x10 1).count 10 0x11 c.num
    if c.fl0 then .done (s.count 10 0x16 1) g (ls.flatMap fun l => linkOut e l) 0 0 c.num
    else
      let vs := ls.map fun l => voteOut e.nclass l
      let ties := (vs.filter fun v => v.tie).length
      let s := ({ s with tre := { s.tre with tie := (s.tre.tie + ties) % 2 ^ 48 } } : State).count 10 0x12 ties
      .done (s.count 10 0x13 (vs.filter fun v => v.none').length) g (vs.flatMap fun v => voteBytes v) 0 ties c.num

/-- A CLASSIFY call closes or abandons every open pass of the request on the model (R227). -/
def State.dropClassify (s : State) (h : Handle) (m : Nat) : State :=
  { s with dsp := { s.dsp with insts := s.dsp.insts.map fun p =>
      if p.2.handle = h then (p.1, { p.2 with passes := p.2.passes.filter fun q => !(decide (q.op = 2) && decide (q.key = m)) }) else p } }

/-- The job's SPEC calls moved KV_END of the model, or its ordinary call set it (05 R108). -/
def State.markSpec (s : State) (slot m : Nat) (spec : Bool) : State :=
  match s.job slot with
  | none => s
  | some j =>
    let l := j.specs.filter fun k => k ≠ m
    s.setJob slot (some { j with specs := if spec then l ++ [m] else l })

/-- Logits as bytes with the poison tag of their scratch words, which is set where a word holds a logit of a skewed row (05 R94). -/
def logitBytes (out : Nat) (skewed : Bool) (l : List F32) : List (Byte × Bool) :=
  let bad := fun (n : Nat) => skewed && decide (((l[n]?).getD 0) = qnan)
  let word := fun (n : Nat) => (List.range l.length).any fun m => bad m && decide ((out + 4 * m) / 8 ≤ (out + 4 * n + 3) / 8) &&
    decide ((out + 4 * n) / 8 ≤ (out + 4 * m + 3) / 8)
  (l.mapIdx fun n v => (leBytes 4 v.toNat).map fun b => (b, word n)).flatten

/-- CLASSIFY (05 R94, R95, R98, R105-R109; 10 R227). -/
def State.runClassify (s : State) (i : Nat) (w : Caller) (g : GInst) (ep : Epoch) (c : Call) (a : Nat) : CallOut :=
  let m := s.modelHdr a
  let e := s.entry i
  let x := s.slot w.slot
  if x.anyBad c.inA (4 * c.num) then .fault s 3
  else
      let toks := c.tokens x
      let k := c.num' g
      let p0 := c.base.kv
      if !s.readsOk e.dom ((a, 64) :: (m.ttab, 32 * m.ntensor) :: s.callArrays m p0 toks) then .fault s.viol 9 else
      let s := s.lookUp 0 e.dom ep.gen (linesBy 4096 (s.callArrays m p0 toks))
      let r := s.classifyRun e.dom m (areaPages (s.runs e.plist e.npage) 3 c.key) p0 toks
      let f := r.1
      let h := s.handleOf i
      let s := { f.s with cls := { f.s.cls with
        ovf := (f.s.cls.ovf + f.ovf) % 2 ^ 48, skew := (f.s.cls.skew + f.skew.length) % 2 ^ 48 } }
      let s := (s.count 8 0x14 f.skew.length).count 8 0x15 f.ovf
      let s := f.skew.foldl (fun s n => s.logRec 0x06 8 0 c.key e.dom false s.tally (BitVec.ofNat 64 h.toNat) (BitVec.ofNat 64 n.2) 0) s
      let en := p0 + c.num
      let wrap := nb (decide (en > m.win))
      if !f.skew.isEmpty then .skew s (logitBytes c.out true r.2) wrap m.classes
      else if f.oob then .fault s 9
      else if f.bad then .fault s 2
      else
        let s := s.updReq i fun r => { r with kv := updAt r.kv c.key fun y => { y with fin := en } }
        let s := (s.dropClassify g.handle c.key).markSpec w.slot c.key c.fl0
        let g := { g with passes := g.passes.filter fun q => !(decide (q.op = 2) && decide (q.key = c.key)) }
        let q :=
          if c.fl1 then (s, { g with passes := g.passes ++ [⟨w.inst, w.task, 2, c.key, k, c.fl0, en, 0, []⟩] })
          else if c.fl0 then (s, g)
          else s.reach i g k (.kv c.key en) fun w => match w with
            | .kv n _ => decide (n = c.key)
            | _ => false
        let s := ((q.1.count 8 0x10 1).count 8 0x11 c.num).count 8 0x12 (nb c.fl0)
        .done s q.2 (r.2.flatMap fun v => leBytes 4 v.toNat) 0 wrap m.classes

/-- The call's computation, with the checks of R226 first; g is the top instance of its job. -/
def State.runCall (s : State) (i slot : Nat) (j : Job) (g : GInst) (c : Call) : CallOut :=
  let w : Caller := ⟨j.inst, j.task, slot⟩
  if s.callBad i slot j g c then badArg s g
  else match s.jobEpoch j with
    | none => badArg s g
    | some ep =>
      match c.obj ep with
      | none => badArg s g
      | some a =>
        match c.op with
        | .matchOp => s.runMatch i w g c a
        | .xlate => s.runXlate i w g c a
        | .feature => s.runFeature i w g ep c a
        | .tree => s.runTree i slot g ep c a
        | .classify => s.runClassify i w g ep c a

/-- A text call without CONT abandons the partial pass of its kind (R227). -/
def GInst.abandon (g : GInst) (j : Job) (c : Call) : GInst :=
  match c.op with
  | .matchOp => if c.fl0 then g else g.setPass j.inst j.task 0 none
  | .xlate => if c.fl0 then g else g.setPass j.inst j.task 1 none
  | _ => g

/-- The status word (R197). -/
def statusWord (code : Nat) (restart : Bool) (spec count : Nat) : Word :=
  pack 64 [(0, code), (8, nb restart), (16, spec), (32, count)]

/-- Deliver a call's output and status to the job (R229). -/
def State.deliverCall (s : State) (slot : Nat) (c : Call) (bytes : List (Byte × Bool)) (st : Word) : State :=
  match s.job slot with
  | none => s
  | some j =>
    let j := { j.setReg c.gd st false with calls := j.calls.filter fun d => d.id ≠ c.id }
    let x := s.slot slot
    s.setSlot slot { x.storeBytes c.out bytes with job := some j }

/-- The memory port of a call's unit (13 R290). -/
def CallOp.port (op : CallOp) : Nat := if op.cls = 1 then 8 else if op.cls = 2 then 4 else 3

/-- A call of a job completes. A call on a segment that does not exist completes at once, without a unit (R198). -/
def State.finishCall (s : State) (slot : Nat) (j : Job) (c : Call) : State :=
  match s.rootInst j.inst with
  | none => s
  | some g =>
    let i := hIdx j.handle
    let textual := decide (c.op = .matchOp) || decide (c.op = .xlate) || decide (c.op = .feature)
    let ev := fun (s : State) => if c.op = .xlate then s.count 7 0x14 1 else if c.op = .matchOp then s.count 7 0x15 1 else s
    if textual && !g.answer && noSeg (s.entry i) g c.seg then
      ((ev s).setInst (s.rootOf j.inst) (g.abandon j c)).deliverCall slot c [] (statusWord 2 false 0 0)
    else if c.started.isNone then s
    else match s.runCall i slot j g c with
      | .fault s' 9 => s'.memTrip c.op.port i s.tally
      | .fault s' k => s'.jobFault slot k 0 s.tally
      | .skew s' bs spec n => ((ev s').deliverCall slot c bs (statusWord 0 c.restart spec n)).jobFault slot 1 0 s.tally
      | .done s' g' bs code spec n =>
        ((ev s').setInst (s.rootOf j.inst) g').deliverCall slot c (bs.map fun b => (b, false)) (statusWord code (c.restart && decide (code ≠ 0x10)) spec n)

/-- Subsystem of the unit that a call of a job's slot runs on (R10). -/
def State.callSub (s : State) (slot id : Nat) : Nat :=
  clsSub ((((s.job slot).bind fun j => j.calls.find? fun c => c.id = id).map fun c => c.op.cls).getD 0)

def execCallComplete (t : Stamp) (slot : Fin 64) (call : Nat) (s : State) : Out :=
  let s := s.upTo t (kSub (s.callSub slot call))
  if !s.running then .next s
  else match (s.job slot).bind fun j => (j.calls.find? fun c => c.id = call).map fun c => (j, c) with
    | some x => if x.2.started.isSome && !s.mem.en then .next s else .next (s.finishCall slot x.1 x.2)   -- 13 R309
    | none =>
      if !s.mem.en then .next s else .next { s with dsp := { s.dsp with
        orphans := s.dsp.orphans.filter fun o => !(decide (o.slot = slot.val) && decide (o.call.id = call)) } }

end Sys2Proof.Machine
end

