-- ==== Sys2Proof/Machine/Dispatcher.lean ====
section
/-! DEFINITION. Dispatcher.lean: graphs and instances (08 R156-R169, R178, R187): the start and end of an instance, dependences,
placement of jobs, grants; the commands GRAPH_START, DEPENDENCE_RESOLVE, JOB_PLACE, SEM_GRANT, CREDIT_GRANT. -/

namespace Sys2Proof.Machine

/-! ### Graphs in the image (R156, R157) -/

structure GraphHdr where
  ntask : Nat
  vtask : Nat
  role  : Nat
  tasks : Nat
deriving DecidableEq, Repr

/-- Header address of graph g. -/
def State.graphAddr (s : State) (gdir g : Nat) : Nat := fld (s.rd64 (gdir + 8 * g)) 0 40

def State.graphHdr (s : State) (a : Nat) : GraphHdr :=
  let w := s.rd64 a
  ⟨fld w 0 7, fld w 7 6, fld w 13 2, fld (s.rd64 (a + 8)) 0 40⟩

def State.taskAt (s : State) (a : Nat) : Task :=
  let w := s.rd64 a
  ⟨bitAt w 0, fld w 1 2, bitAt w 3, fld w 8 10, fld (s.rd64 (a + 8)) 0 40, s.rd64 (a + 16),
    BitVec.ofNat 32 (fld (s.rd64 (a + 24)) 0 32)⟩

/-! ### Readiness (R162) -/

/-- Task i becomes ready at t: a SUB task starts its subgraph, another waits for a slot. -/
def State.makeReady (s : State) (n i : Nat) (t : Stamp) : State :=
  match s.inst n with
  | none => s
  | some g =>
    match g.tasks[i]? with
    | none => s
    | some k =>
      let g' := { g with ready := Tab.set g.ready i t }
      if k.sub then
        (s.setInst n { g' with issued := g.issued ||| (1#64 <<< i) }).trigger
          ⟨g.handle, k.subg, g.answer, g.k, some (n, i), g.depth + 1, g.screen, g.ntok, g.final, g.wend, t⟩
      else
        let s := s.setInst n g'
        { s with dsp := { s.dsp with ready := s.dsp.ready ++ [⟨n, i, t, none⟩] } }

/-- The tasks whose dependences are met and that were not ready before. -/
def GInst.nowReady (g : GInst) : List Nat :=
  (List.range g.ntask).filter fun i => match g.tasks[i]? with
    | some k => decide (k.deps &&& ~~~g.met = 0) && !bitAt (g.issued ||| g.skip) i && (Tab.get g.ready i).isNone
    | none => false

def State.resolveInst (s : State) (n : Nat) (t : Stamp) : State :=
  match s.inst n with
  | none => s
  | some g => g.nowReady.foldl (fun s i => s.makeReady n i t) s

/-- Tasks of an instance are done or skipped as its dependants see it, from t on (R162). -/
def State.meet (s : State) (n : Nat) (set : BitVec 64) (t : Stamp) : State :=
  (s.updInst n fun g => { g with met := g.met ||| set }).resolveInst n t

/-! ### GRAPH_START (R160) -/

/-- An index of a free record; which one is a free value (log entry 13). -/
def State.pickInst (s : State) : Nat :=
  let free := (List.range 2048).filter fun n => (s.inst n).isNone
  (free[Config.instPick s.fresh % max 1 free.length]?).getD 0

/-- May the request's domain read a graph of its epoch: the directory's entry, the header and the task descriptors (13 R287)? -/
def State.graphReads (s : State) (d gdir g : Nat) : Bool :=
  let a := s.graphAddr gdir g
  let h := s.graphHdr a
  s.readsOk d [(gdir + 8 * g, 8), (a, 64), (h.tasks, 32 * h.ntask)]

/-- A trigger whose graph cannot be read trips the memory port for the request, which recovers: the trigger waits in the start queue still,
and starts anew with the request (13 R287; 08 R182). -/
def State.graphTrip (s : State) (tr : Trigger) : Option Nat :=
  (s.live tr.handle).bind fun i => (s.epochOf (s.entry i)).bind fun ep =>
    if s.graphReads (s.entry i).dom ep.gdir tr.graph then none else some i

/-- A trigger obtains a record and starts its instance at t. -/
def State.startGraph (s : State) (tr : Trigger) (t : Stamp) : State :=
  match s.live tr.handle with
  | none => s
  | some i =>
    match s.epochOf (s.entry i) with
    | none => s
    | some ep =>
      let h := s.graphHdr (s.graphAddr ep.gdir tr.graph)
      let n := s.pickInst
      let tasks := (List.range h.ntask).map fun k => s.taskAt (h.tasks + 32 * k)
      let g : GInst := ⟨tr.handle, tr.graph, tr.answer, tr.k, tr.parent, tr.depth, tr.screen, h.ntask, h.vtask, tasks, 0, 0, 0, 0,
        [], none, tr.wend, tr.ntok, tr.final, 0, false, [], [], []⟩
      ((s.draw.setInst n g).count 4 0x10 (nb tr.parent.isNone)).resolveInst n t

def execGraphStart (t : Stamp) (s : State) : Out :=
  let s := s.upToWhen t (kSub 4) fun u => !u.dsp.startQ.isEmpty
  match s.dsp.startQ with
  | [] => .next s
  | tr :: r =>
    if !s.running || !s.dspEn || !s.mem.en || decide (s.dsp.insts.length ≥ 2048) then .next s
    else match s.graphTrip tr with
      | some i => .next (s.viol.memTrip 2 i s.tally)
      | none =>
        let s := ({ s with dsp := { s.dsp with startQ := r } } : State).admitOutside
        .next (s.startGraph tr s.tally)

/-! ### The end of an instance (R164-R166) -/

/-- The record of a top instance and those of its subgraphs are freed; the generations of their result words move on (R166, 09 R194,
14 R313). -/
def State.freeInst (s : State) (n : Nat) : State :=
  let ns := (s.dsp.insts.filter fun p => decide (s.rootOf p.1 = n)).map fun p => p.1
  { s with dsp := { s.dsp with
      insts := s.dsp.insts.filter fun p => !ns.contains p.1
      instGen := ns.foldl (fun t k => Tab.set t k (genSucc (Tab.getD t k 1))) s.dsp.instGen
      ready := s.dsp.ready.filter fun r => !ns.contains r.inst
      resolve := s.dsp.resolve.filter fun r => !ns.contains r.inst } }

def GInst.complete (g : GInst) : Bool := decide (g.met &&& (BitVec.allOnes 64 >>> (64 - g.ntask)) = BitVec.allOnes 64 >>> (64 - g.ntask))

/-- The normal end of a top instance at t: states commit, the request is flushed, the chunk's view goes (R166, 13 R294). -/
def State.endTop (s : State) (n : Nat) (g : GInst) (t : Stamp) : State :=
  let i := hIdx g.handle
  let s := (s.freeInst n).count 4 0x11 1
  let s := if g.answer then g.work.foldl (fun s w => s.commit i true g.k w) s else s
  let s := if g.answer then s.freeView g.handle g.k else s
  if g.work.isEmpty then s else s.flush i t

/-- An instance whose tasks are all done or skipped ends at t. A subgraph completes its SUB task, whose dependants become ready with
this event (R162; log entry 48). -/
def State.endInst (s : State) (n : Nat) (t : Stamp) : Nat → State
  | 0 => s
  | fuel + 1 =>
    match s.inst n with
    | none => s
    | some g =>
      if !g.complete || g.ended then s
      else match g.parent with
        | none => s.endTop n g t
        | some p =>
          let s := (s.updInst n fun q => { q with ended := true }).updInst p.1 fun q => { q with
            results := Tab.set q.results p.2 (g.verdict.getD 0)
            done := q.done ||| (1#64 <<< p.2) }
          (s.meet p.1 (1#64 <<< p.2) t).endInst p.1 t fuel

/-- DEPENDENCE_RESOLVE (R162, R166): 2 MCLK after an END or a SKIP its tasks count as met, dependants become ready, and an instance
that is complete ends. -/
def execDependenceResolve (t : Stamp) (inst : BitVec 11) (s : State) : Out :=
  let s := s.upTo t (kSub 4)
  let n := inst.toNat
  match s.dsp.resolve.find? fun r => decide (r.inst = n) && decide (r.at' + 4 ≤ s.tally) with
  | none => .next s
  | some r =>
    if !s.running then .next s
    else
      let s := { s with dsp := { s.dsp with resolve := s.dsp.resolve.erase r } }
      .next ((s.meet n r.set (r.at' + 4)).endInst n (r.at' + 4) 6)

/-! ### Placement (R167, R169, R187) -/

/-- Is core c in service (14 R317, R339)? -/
def State.coreUp (s : State) (c : Nat) : Bool :=
  !bitAt s.pil.fenced c || (decide (s.pil.sp16 = some c) && !bitAt s.pil.fenced 16) ||
    (decide (s.pil.sp17 = some c) && !bitAt s.pil.fenced 17)

def State.coreLoad (s : State) (c : Nat) : Nat := ((List.range 4).filter fun k => (s.job (4 * c + k)).isSome).length

/-- The lowest free slot of a core at t. -/
def State.freeSlotOf (s : State) (c : Nat) (t : Stamp) : Option Nat :=
  ((List.range 4).map fun k => 4 * c + k).find? fun k => (s.job k).isNone && decide ((s.slot k).free ≤ t)

/-- Does an overrun hold the core: no job is placed on it before the overrun ends (R174)? -/
def State.coreOver (s : State) (c : Nat) : Bool :=
  (List.range 4).any fun k => match s.job (4 * c + k) with
    | some j => j.lateAt.isSome
    | none => false

/-- The lowest-numbered free slot on the in-service core with the fewest occupied slots. -/
def State.placeSlot (s : State) (t : Stamp) : Option Nat :=
  let cs := (List.range 16).filter fun c => s.coreUp c && !s.coreLeaves c && !s.coreOver c && (s.freeSlotOf c t).isSome
  let best := cs.foldl (fun (a : Option Nat) c => match a with
    | some b => if s.coreLoad c < s.coreLoad b then some c else a
    | none => some c) none
  best.bind fun c => s.freeSlotOf c t

def State.readyDom (s : State) (r : Ready) : Nat × Bool := (s.readyJob r).getD (0, false)

/-- The ready job that comes first in issue order among those eligible. -/
def State.nextJob (s : State) (t : Stamp) : Option Ready :=
  firstBy (fun (r : Ready) =>
    let x := s.readyDom r
    let h := ((s.inst r.inst).map fun g => hIdx g.handle).getD 0
    (if s.elig 0 x.1 x.2 t = .owner then 0 else 1, 15 - (s.entry h).prio, r.stamp, h, r.task))
    (s.dsp.ready.filter fun r =>
      (s.readyJob r).isSome && decide (s.elig 0 (s.readyDom r).1 (s.readyDom r).2 t ≠ .no) && s.underJobmax (s.readyDom r).1)

/-- A slot's generation moves on; words that carry the new value read as stale (09 R190, 14 R313). -/
def Slot.reborn (x : Slot) : Slot :=
  let g := genSucc x.gen
  { x with gen := g, words := x.words.map fun p => (p.1, if p.2.gen = g then { p.2 with valid := false } else p.2) }

/-- The first number for a new job's calls: above the calls of gone jobs that still run for the slot. -/
def State.firstCall (s : State) (slot : Nat) : Nat :=
  (s.dsp.orphans.filter fun o => o.slot = slot).foldl (fun a o => max a (o.call.id + 1)) 0

/-- The registers of a job at its first placement (R187). -/
def startRegs (g : GInst) (k : Task) : List Reg :=
  ([0, k.arg.setWidth 64, BitVec.ofNat 64 g.k, pack 64 [(0, g.ntok), (9, nb g.final)], g.wend].map fun v => (⟨v, false⟩ : Reg)) ++
    List.replicate 27 ⟨0, false⟩

def State.newJob (s : State) (slot : Nat) (r : Ready) (g : GInst) (k : Task) : Job :=
  let e := s.entry (hIdx g.handle)
  let w := s.rd64 k.prog
  { inst := r.inst, task := r.task, handle := g.handle, dom := e.dom, prio := e.prio, elastic := k.elastic, cls := k.cls
    prog := k.prog, nword := fld w 0 18, pc := 4 * fld w 18 18, regs := startRegs g k, preds := 0
    wins := List.replicate 4 none, calls := [], nextCall := s.firstCall slot, ldms := [], sems := [], creds := [], wait := .no
    ready := r.stamp, holdEnd := none, lateAt := none, stores := [], specs := [] }

/-- May the request's domain read a program: its header and its words (13 R287; 09 R202)? -/
def State.progReads (s : State) (d prog : Nat) : Bool := s.readsOk d [(prog, 64), (prog + 64, 4 * fld (s.rd64 prog) 0 18)]

/-- Place a new job. A program that cannot be read trips the memory port for the request (13 R287). -/
def State.placeNew (s : State) (slot : Nat) (r : Ready) (g : GInst) (k : Task) : State :=
  let j := s.newJob slot r g k
  if !s.progReads j.dom k.prog then s.viol.memTrip 2 (hIdx g.handle) s.tally else
  let s := s.setSlot slot { (s.slot slot).reborn with job := some j }
  let s := s.setInst r.inst { g with issued := g.issued ||| (1#64 <<< r.task) }
  (s.updDom j.dom fun d => { d with jobs := (d.jobs + 1) % 2 ^ 48 }).count 4 0x13 1

/-- The area of save frame f (R177). -/
def State.frameAt (s : State) (f : Nat) : Nat := s.dsp.saveBase + f * frameSize

/-- Resume a job from its save frame (R176, 09 R199). A frame that fails the check of 13 R287 trips the memory port for the request. -/
def State.placeSaved (s : State) (slot f : Nat) (x : Frame) : State :=
  if !s.areaOk (s.frameAt f) frameSize then s.viol.memTrip 2 (hIdx x.job.handle) s.tally
  else
  let y := (s.slot slot).reborn
  let back := x.words.map fun p => (p.1, { p.2 with gen := y.gen, valid := true })
  let words := back.foldl (fun t p => Tab.set t p.1 p.2) y.words
  let s := s.setSlot slot { y with words := words, job := some { x.job with nextCall := max x.job.nextCall (s.firstCall slot) } }
  ({ s with dsp := { s.dsp with frames := Tab.del s.dsp.frames f } } : State).count 4 0x14 1

/-- Place a ready job in a slot. -/
def State.place (s : State) (slot : Nat) (r : Ready) : State :=
  let s := { s with dsp := { s.dsp with ready := s.dsp.ready.erase r } }
  match r.frame with
  | some f =>
    match Tab.get s.dsp.frames f with
    | some x => s.placeSaved slot f x
    | none => s
  | none =>
    match s.inst r.inst with
    | none => s
    | some g =>
      match g.tasks[r.task]? with
      | some k => s.placeNew slot r g k
      | none => s

def execJobPlace (t : Stamp) (s : State) : Out :=
  let s := s.upTo t (kSub 4)
  let u := s.tally
  if !s.running || !s.dspEn || !s.mem.en then .next s
  else match s.nextJob u, s.placeSlot u with
    | some r, some k => .next (s.place k r)
    | _, _ => .next s

/-! ### Semaphores and credits (R178, R180; 10 R233, R234) -/

/-- Give a semaphore to the job in a slot: gd receives RECLAIMED. -/
def State.giveSem (s : State) (slot : Nat) (j : Job) (n gd : Nat) : State × Job :=
  let x := (s.domOf j.dom).sem n
  let s := s.updSem j.dom n fun y => { y with holder := some slot, reclaimed := false }
  (s.count 4 0x1A (nb x.reclaimed),
    { j.setReg gd (BitVec.ofNat 64 (nb x.reclaimed)) false with sems := j.sems ++ [n], wait := .no })

def execSemGrant (t : Stamp) (dom : BitVec 8) (sem : BitVec 4) (s : State) : Out :=
  let s := s.upTo t (kSub 5)
  let d := dom.toNat
  let n := sem.toNat
  let x := (s.domOf d).sem n
  match x.holder, x.waiters with
  | none, w :: r =>
    if !s.running then .next s
    else match s.job w with
      | none => .next (s.updSem d n fun y => { y with waiters := r })
      | some j =>
        match j.wait with
        | .sem _ _ gd =>
          let q := (s.updSem d n fun y => { y with waiters := r }).giveSem w j n gd
          .next (q.1.setJob w (some q.2))
        | _ => .next (s.updSem d n fun y => { y with waiters := r })
  | _, _ => .next s

/-- Give n credits of pool g to a job: gd receives RECLAIMED and the count. -/
def State.giveCreds (s : State) (j : Job) (g n gd : Nat) : State × Job :=
  let x := s.group g
  let s := s.setGroup g { x with free := x.free - n, marked := false }
  (s.count 4 0x1A (nb x.marked),
    { j.setReg gd (pack 64 [(0, nb x.marked), (16, n)]) false with
      creds := Tab.set j.creds g (Tab.getD j.creds g 0 + n), wait := .no })

def execCreditGrant (t : Stamp) (pool : Fin 8) (s : State) : Out :=
  let s := s.upTo t (kSub 5)
  let x := s.group pool
  match x.waiters with
  | [] => .next s
  | w :: r =>
    if !s.running then .next s
    else match s.job w with
      | none => .next (s.setGroup pool { x with waiters := r })
      | some j =>
        match j.wait with
        | .cred _ n _ gd =>
          if x.free < n then .next s
          else
            let q := (s.setGroup pool { x with waiters := r }).giveCreds j pool n gd
            .next (q.1.setJob w (some q.2))
        | _ => .next (s.setGroup pool { x with waiters := r })

end Sys2Proof.Machine
end

