-- ==== Sys2Proof/Machine/Jobs.lean ====
section
/-! DEFINITION. Jobs.lean: verdicts, semaphores, credits, pre-emption, notices and the end of a job (10 R231-R238; 08 R163-R166,
R176-R179; 09 R199): VERDICT, VMERGE, SEMACQ, SEMREL, CRACQ, CRREL, YIELD, NOTE, SALM_FENCE, TRAP, END. -/

namespace Sys2Proof.Machine

/-! ### Verdict words (R231, R232) -/

/-- Is a word a verdict word: reserved bits zero, an ACTION of R45, COVER_N at most 256? -/
def verdictOk (v : Word) : Bool :=
  decide (v.toNat < 2 ^ 21) && (actOf (fld v 0 3)).isSome && decide (fld v 12 9 ≤ 256)

/-- merge(a, b) of R232. -/
def verdictMerge (a b : Word) : Word :=
  let ca := fld a 0 3
  let cb := fld b 0 3
  let esc := nb (bitAt a 3 || bitAt b 3)
  let mk := fun (off n : Nat) => pack 64 [(0, max ca cb), (3, esc), (4, off), (12, n)]
  let cov := fun (w : Word) => mk (fld w 4 8) (fld w 12 9)
  if ca ≠ cb then (if ca > cb then cov a else cov b)
  else if fld a 12 9 = 0 ∨ fld b 12 9 = 0 then mk 0 0
  else
    let off := min (fld a 4 8) (fld b 4 8)
    let en := max (fld a 4 8 + fld a 12 9) (fld b 4 8 + fld b 12 9)
    mk off (min (en - off) 256)

def execVerdict (t : Stamp) (slot : Fin 64) (f : BitVec 26) (x : BitVec 32) (s : State) : Out :=
  let legal := decide (fGD f = 0) && decide (fFN f = 0) && decide (fGB f = 0) && (!fX f || decide (fGA f = 0))
  .next ((s.upTo t (kSub 5)).issue slot f legal (guardA f) [fGA f] [] fun s j =>
    let v : Reg := if fX f then ⟨x.setWidth 64, false⟩ else j.reg (fGA f)
    if v.pois then .fault 0x19
    else if !verdictOk v.val then .fault 0x1B
    else match s.inst j.inst with
      | none => .next s j
      | some g =>
        if j.task = g.vtask then .next (s.setInst j.inst { g with verdict := some v.val }) j
        else .next (s.count 5 0x16 1) j)

def execVmerge (t : Stamp) (slot : Fin 64) (f : BitVec 26) (x : BitVec 32) (s : State) : Out :=
  .next ((s.upTo t (kSub 5)).issue slot f (gbOk f && decide (fFN f = 0)) (guardA f) [fGA f, fGB f] [fGD f] fun s j =>
    let a := j.reg (fGA f)
    let b := j.op2 f x
    if a.pois || b.pois then .fault 0x19
    else if !(verdictOk a.val && verdictOk b.val) then .fault 0x1B
    else result s j (fGD f) (verdictMerge a.val b.val) false)

/-! ### Semaphores and credits (R233, R234) -/

def execSemacq (t : Stamp) (slot : Fin 64) (f : BitVec 26) (_x : BitVec 32) (s : State) : Out :=
  let legal := !fX f && decide (fGB f = 0) && decide (fFN f = 0)
  .next ((s.upTo t (kSub 5)).issue slot f legal (guardA f) [fGA f] [fGD f] fun s j =>
    let v := j.reg (fGA f)
    let n := v.val.toNat
    if v.pois then .fault 0x19
    else if n > 15 then .fault 0x1C
    else if j.sems.contains n then result s j (fGD f) 2 false
    else
      let y := (s.domOf j.dom).sem n
      if y.holder.isNone ∧ y.waiters.isEmpty then
        let q := s.giveSem slot j n (fGD f)
        .next q.1 q.2
      else
        .next (s.updSem j.dom n fun y => { y with waiters := y.waiters ++ [slot.val] })
          { j with wait := .sem n s.tally (fGD f) })

/-- The job's stores are ordered (09 R193). -/
def Job.ordered (j : Job) : Job := { j with stores := [] }

def execSemrel (t : Stamp) (slot : Fin 64) (f : BitVec 26) (_x : BitVec 32) (s : State) : Out :=
  let legal := !fX f && decide (fGD f = 0) && decide (fGB f = 0) && decide (fFN f = 0)
  .next ((s.upTo t (kSub 5)).issue slot f legal (guardA f) [fGA f] [] fun s j =>
    let v := j.reg (fGA f)
    let n := v.val.toNat
    if v.pois then .fault 0x19
    else if n > 15 then .fault 0x1C
    else if j.sems.contains n then
      .next ((s.order slot).releaseSem j.dom n false) { j.ordered with sems := j.sems.filter fun k => k ≠ n }
    else .next ((s.order slot).count 5 0x19 1) j.ordered)

/-- Does a pool number name a group that is up (13 R306)? -/
def State.poolOk (s : State) (g : Nat) : Bool := decide (g < 8) && (s.group g).isUp

def execCracq (t : Stamp) (slot : Fin 64) (f : BitVec 26) (_x : BitVec 32) (s : State) : Out :=
  let legal := !fX f && decide (fFN f = 0)
  .next ((s.upTo t (kSub 5)).issue slot f legal (guardA f) [fGA f, fGB f] [fGD f] fun s j =>
    let p := j.reg (fGA f)
    let v := j.reg (fGB f)
    let g := p.val.toNat
    let n := v.val.toNat
    if p.pois || v.pois then .fault 0x19
    else if !s.poolOk g || decide (n = 0) || decide (n > 64) then .fault 0x1C
    else
      let y := s.group g
      if y.waiters.isEmpty ∧ n ≤ y.free then
        let q := s.giveCreds j g n (fGD f)
        .next q.1 q.2
      else .next (s.setGroup g { y with waiters := y.waiters ++ [slot.val] }) { j with wait := .cred g n s.tally (fGD f) })

def execCrrel (t : Stamp) (slot : Fin 64) (f : BitVec 26) (_x : BitVec 32) (s : State) : Out :=
  let legal := !fX f && decide (fGD f = 0) && decide (fFN f = 0)
  .next ((s.upTo t (kSub 5)).issue slot f legal (guardA f) [fGA f, fGB f] [] fun s j =>
    let p := j.reg (fGA f)
    let v := j.reg (fGB f)
    let g := p.val.toNat
    if p.pois || v.pois then .fault 0x19
    else if !s.poolOk g then .fault 0x1C
    else
      let held := Tab.getD j.creds g 0
      let n := min v.val.toNat held
      let s := if v.val.toNat > held then s.count 5 0x1A 1 else s
      .next (s.returnCredits g n false) { j with creds := Tab.set j.creds g (held - n) })

/-! ### YIELD (R235, 08 R176, R179; 09 R199) -/

def yieldExtent (v : Nat) : Nat := min 65536 ((v + 63) / 64 * 64)

/-- The scratch words below E as a save frame holds them: a stale word is what it reads as, poisoned zero (09 R190, R199). -/
def Slot.saved (x : Slot) (e : Nat) : Tab SWord :=
  (List.range (e / 8)).map fun k => (k, (x.word k).getD ⟨0, x.gen, true, true⟩)

/-- Save a job with the scratch words below E and free its slot. A frame that fails the check of 13 R287 trips the memory port for the
request. -/
def State.preempt (s : State) (slot : Nat) (j : Job) (e fr : Nat) : State :=
  if !s.areaOk (s.frameAt fr) frameSize then s.viol.memTrip 2 (hIdx j.handle) s.tally
  else
    let words := (s.slot slot).saved e
    let gen := genSucc (Tab.getD s.dsp.frameGen fr 0)
    let s := (s.order slot).setJob slot none
    let j := { j with lateAt := none, holdEnd := none, stores := [] }
    ({ s with dsp := { s.dsp with
      frames := Tab.set s.dsp.frames fr ⟨j, words, gen⟩
      frameGen := Tab.set s.dsp.frameGen fr gen
      ready := s.dsp.ready ++ [⟨j.inst, j.task, j.ready, some fr⟩] } } : State).count 4 0x15 1

/-- What a YIELD does (R176, R179, R199): one with a call outstanding does not pre-empt, and is counted. -/
def State.yieldJob (s : State) (slot : Nat) (j : Job) (e : Nat) (len : Nat) : Eff :=
  if !j.ldms.isEmpty then .held
  else if !j.calls.isEmpty then .next (s.count 5 0x17 1) j
  else if !s.preemptDue slot j s.tally then .next s j
  else if j.holds then
    .next s { j with holdEnd := some (j.holdEnd.getD (s.tally + 240 * s.tt.holdlim)), lateAt := some (j.lateAt.getD s.tally) }
  else
    let fr := Tab.lowestFree s.dsp.frames 0
    if fr ≥ 1024 then .next (s.count 4 0x16 1) j
    else .gone (s.preempt slot { j with pc := j.pc + len } e fr)

def execYield (t : Stamp) (slot : Fin 64) (f : BitVec 26) (x : BitVec 32) (s : State) : Out :=
  let legal := decide (fGD f = 0) && decide (fGB f = 0) && decide (fFN f = 0) && (!fX f || decide (fGA f = 0))
  .next ((s.upTo t (kSub 5)).issue slot f legal (guardA f) [fGA f] [] fun s j =>
    let v : Reg := if fX f then ⟨x.setWidth 64, false⟩ else j.reg (fGA f)
    if v.pois then .fault 0x19 else s.yieldJob slot j (yieldExtent v.val.toNat) (ilen f))

/-! ### NOTE, FENCE, TRAP, END (R236-R238) -/

def execNote (t : Stamp) (slot : Fin 64) (f : BitVec 26) (_x : BitVec 32) (s : State) : Out :=
  let legal := !fX f && decide (fGD f = 0) && decide (fGB f = 0)
  .next ((s.upTo t (kSub 5)).issue slot f legal (guardA f) [fGA f] [] fun s j =>
    let v := j.reg (fGA f)
    if v.pois then .fault 0x19
    else .next (s.note 0x8C j.dom j.handle s.tally [s.jobWord slot j, BitVec.ofNat 64 (fFN f), v.val]) j)

/-- All fields but the guard are zero. -/
def bare (f : BitVec 26) : Bool :=
  !fX f && decide (fGD f = 0) && decide (fGA f = 0) && decide (fGB f = 0) && decide (fFN f = 0)

/-- Does a NOTE of the request wait to enter the notice queue? -/
def State.noteWaits (s : State) (h : Handle) : Bool :=
  s.lnd.wait.any fun m => decide (m.op = 0x8C) && decide (fld (m.head 2) 0 32 = h.toNat)

/-- FENCE (R237): the job's stores are ordered, and its NOTEs have entered the notice queue: those that the build of its request holds back
enter now (log entry 80), and it is held while one waits behind a command FENCE. -/
def execSalmFence (t : Stamp) (slot : Fin 64) (f : BitVec 26) (_x : BitVec 32) (s : State) : Out :=
  .next ((s.upTo t (kSub 5)).issue slot f (bare f) (guardA f) [] [] fun s j =>
    let s := s.letGo (hIdx j.handle) 0 fun _ => true
    if s.noteWaits j.handle then .held else .next (s.order slot) j.ordered)

/-- TRAP, and every word whose opcode R205 marks as ILLEGAL. -/
def execTrap (t : Stamp) (slot : Fin 64) (w _x : BitVec 32) (s : State) : Out :=
  let f := w.setWidth 26
  .next ((s.upTo t (kSub 5)).issue slot f (decide (w.extractLsb' 26 6 = 0x33) && bare f) (guardA f) [] [] fun _ _ => .fault 0x1D)

/-- What the job holds is released at END, unmarked and counted (08 R178; R234). -/
def State.releaseAll (s : State) (j : Job) : State :=
  let s := j.sems.foldl (fun s n => (s.releaseSem j.dom n false).count 5 0x18 1) s
  j.creds.foldl (fun s c => if c.2 = 0 then s else (s.returnCredits c.1 c.2 false).count 5 0x18 1) s

/-- A verdict of a re-screen's graph joins the merge (07 R152). After a CANCEL only its ESC counts (R142). -/
def State.screenVerdict (s : State) (g : GInst) (w : Word) (u : Stamp) : State :=
  match s.live g.handle with
  | none => s
  | some i =>
    if (s.entry i).req.build.isSome then
      s.updReq i fun r => { r with build := r.build.map fun b => b.merge (vwAct w) (vwEsc w) u }
    else if vwEsc w then
      if g.answer then s.escalate i 1 (vwAct w) g.k 0 0 u else s.escalate i 3 (vwAct w) 0xFFFFFFFF 0 0 u
    else s

/-- A verdict task's verdict reaches the Ramp, the prompt's outcome or the re-screen's merge (08 R165; 07 R152). The Ramp's own events of
the stamp that come before a graph verdict are applied first: the expiry, the stages of transfers, the close (03 R48). -/
def State.deliverVerdict (s : State) (g : GInst) (u : Stamp) : State :=
  let i := hIdx g.handle
  match g.verdict with
  | none => s
  | some w =>
    if g.parent.isSome then s
    else if g.screen then s.screenVerdict g w u
    else
      let s := s.upTo u (kRamp 1)
      let s := if g.answer then s.expire i u else s.promptDue i u
      let s := (s.upTo u (kRamp 4)).closeDue i u
      if g.answer then s.graphVerdict i g.k w u else s.promptVerdict i w u

/-- The passes of a job that ends go, and KV_END of its SPEC calls moves back (R227, 05 R108). -/
def State.endPasses (s : State) (j : Job) : State :=
  (s.endSpecs j.handle j.specs).updInst (s.rootOf j.inst) fun g =>
    { g with passes := g.passes.filter fun p => !(decide (p.inst = j.inst) && decide (p.task = j.task)) }

/-- END at u: the result stands, the verdict is delivered, the slot is freed, dependences resolve 2 MCLK later. -/
def State.endJobAt (s : State) (slot : Nat) (j : Job) (g : GInst) (u : Stamp) : State :=
  let s := ((s.order slot).endPasses j).releaseAll j
  let s := (s.dropLdms slot).setJob slot none
  let s := s.updInst j.inst fun g => { g with done := g.done ||| (1#64 <<< j.task) }
  let s := { s with dsp := { s.dsp with resolve := s.dsp.resolve ++ [⟨j.inst, u, 1#64 <<< j.task⟩] } }
  if j.task = g.vtask then s.deliverVerdict g u else s

def execEndJob (t : Stamp) (slot : Fin 64) (f : BitVec 26) (_x : BitVec 32) (s : State) : Out :=
  .next ((s.upTo t (kSub 5)).issue slot f (bare f) (guardA f) [] [] fun s j =>
    if !j.calls.isEmpty then .held
    else match s.inst j.inst with
      | none => .gone (s.setJob slot none)
      | some g =>
        if j.task = g.vtask ∧ g.verdict = none then .fault 6
        else .gone (s.endJobAt slot j g s.tally))

end Sys2Proof.Machine
end

