-- ==== Sys2Proof/Machine/Epochs.lean ====
section
/-! DEFINITION. Epochs.lean: domains and the life of an epoch (11 R253, R254, R256, R258; 03 R63; 04 R87; 08 R186; 07 R155;
15 R353, R355): DOM_OPEN, DOM_CLOSE, IMG_ACTIVATE, IMG_RETIRE, TT_SWITCH. -/

namespace Sys2Proof.Machine

/-! ### Domain settings (R63, R87, R155, R186) -/

/-- The Ramp settings in a VY_DOM_RAMP value. -/
def rampSetOf (w : Word) : RampSet := ⟨fld w 0 9, bitAt w 9, bitAt w 10, bitAt w 11, fld w 16 20, fld w 36 24⟩

/-- The rules of R63 for a domain that is non-enforcing or not. -/
def rampOk (nonenf : Bool) (r : RampSet) : Bool :=
  decide (1 ≤ r.chunk) && decide (r.chunk ≤ 256) && (!r.miss || nonenf) && decide (1 ≤ r.deadline) &&
    decide (r.deadline ≤ 1000000) && decide (1 ≤ r.close) && decide (r.close + 1 ≤ 10 * r.deadline)

/-! ### Live epochs -/

/-- Every epoch slot in use: domain, slot, epoch. -/
def State.epochs (s : State) : List (Nat × Bool × Epoch) :=
  s.doms.flatMap fun p => (p.2.ep0.toList.map fun e => (p.1, false, e)) ++ p.2.ep1.toList.map fun e => (p.1, true, e)

/-- The slot of a live epoch of a domain by its number. -/
def Domain.liveSlot (d : Domain) (num : Nat) : Option Bool :=
  let is := fun (e : Option Epoch) => match e with
    | some x => x.live && decide (x.num = num)
    | none => false
  if is d.ep0 then some false else if is d.ep1 then some true else none

/-- The active epoch of a domain. -/
def Domain.activeEpoch (d : Domain) : Option Epoch := d.active.bind fun sel => d.epoch sel

/-- Does an epoch that is live or loading name the vocabulary slot? -/
def State.vslotNamed (s : State) (n : Nat) : Bool := s.epochs.any fun x => x.2.2.vslots.contains n

/-! ### Retirement (15 R355; 14 R331 EPOCH) -/

/-- Drop the epoch's masks, and the vocabularies that no epoch names any more; its pinned lines become ordinary lines. -/
def State.releaseEpoch (s : State) (d : Nat) (e : Epoch) : State :=
  let masks := e.masks.foldl (fun t id => Tab.set t id { Tab.getD t id MaskDir.none with used := false }) s.tok.masks
  let unpin := fun (l : CLine) => if l.owner = d ∧ l.gen = e.gen then { l with pinned := false } else l
  { s with
    tok := { s.tok with masks := masks }
    cls := { s.cls with cache := s.cls.cache.map unpin }
    tre := { s.tre with store := s.tre.store.map unpin }
    txt := { s.txt with vslots := s.txt.vslots.mapIdx fun n v =>
      if e.vslots.contains n && !s.vslotNamed n then { v with valid := false } else v } }

/-- An EPOCH record (14 R331). -/
def State.logEpoch (s : State) (cls d num : Nat) (d1 : Word) (t : Stamp) : State :=
  s.logRec 0x09 1 0 cls d false t (BitVec.ofNat 64 num) d1 0

/-- The epoch in a slot of a domain retires at t (R355). -/
def State.retireEpoch (s : State) (d : Nat) (sel : Bool) (t : Stamp) : State :=
  match (s.domOf d).epoch sel with
  | none => s
  | some e =>
    let s := s.updDom d fun x => { x.setEpoch sel none with active := if x.active = some sel then none else x.active }
    (s.releaseEpoch d e).logEpoch 2 d e.num 0 t

/-- A load under way in a slot of a domain fails: its epoch goes, the command completes, an EPOCH record is made (11 R255). -/
def State.dropLoad (s : State) (d : Nat) (sel : Bool) (st : Nat) (w : Word) (t : Stamp) : State :=
  match (s.domOf d).epoch sel with
  | none => s
  | some e =>
    match e.loadCmd with
    | none => s
    | some id =>
      (((s.updDom d fun x => x.setEpoch sel none).releaseEpoch d e).complete id st [w]).logEpoch 3 d e.num w t

/-- A superseded epoch whose count is zero retires at t (R140, R355). -/
def State.retireIfDone (s : State) (d : Nat) (sel : Bool) (t : Stamp) : State :=
  let x := s.domOf d
  match x.epoch sel with
  | none => s
  | some e => if e.live && e.everAct && decide (x.active ≠ some sel) && decide (s.epCount d sel = 0) then
      s.retireEpoch d sel t else s

/-! ### DOM_OPEN, DOM_CLOSE (R253, R254) -/

/-- Are the values of a DOM_OPEN allowed (R253)? -/
def openOk (c : Cmd) : Bool :=
  let w2 := c.word 2
  let w3 := c.word 3
  let w4 := c.word 4
  rampOk (bitAt w2 8) (rampSetOf w3) && decide (1 ≤ fld w4 0 8) && decide (fld w2 13 7 ≤ 64) && decide (fld w2 20 17 ≤ 65536) &&
    decide (fld w2 37 27 = 0) && decide (fld w3 12 4 = 0) && decide (fld w3 60 4 = 0) && decide (fld w4 10 54 = 0)

/-- The domain opened by the words of a DOM_OPEN. -/
def openedDomain (c : Cmd) (old : Domain) : Domain :=
  let w2 := c.word 2
  { old with
    isOpen := true, nonenf := bitAt w2 8, ramp := rampSetOf (c.word 3), pmax := fld (c.word 4) 0 8
    formB := bitAt (c.word 4) 8, formT := bitAt (c.word 4) 9, quota := fld w2 20 17, dclass := fld w2 9 4
    jobmax := fld w2 13 7, jobs := 0, active := none, ep0 := none, ep1 := none }

def State.domOpen (s : State) (c : Cmd) : State :=
  let d := fld (c.word 2) 0 8
  if (s.domOf d).isOpen then s.complete c.id stOPEN []
  else if !openOk c then s.complete c.id stBAD_ARG []
  else (s.updDom d (openedDomain c)).complete c.id stOK []

def execDomOpen (t : Stamp) (s : State) : Out := onCommand t 0x20 true s fun s c => s.domOpen c

/-- Does another domain's epoch name a shared vocabulary of d (R254)? -/
def State.sharesVocab (s : State) (d : Nat) : Bool :=
  s.epochs.any fun x => decide (x.1 ≠ d) && x.2.2.vslots.any fun n =>
    match (s.txt.vslots[n]? : Option VSlot) with
    | some v => v.valid && v.shared && decide (v.owner = d)
    | none => false

/-- DOM_CLOSE (R254). DESIGN CHOICE: a load still under way on the domain completes with NOT_OPEN (log entry 20). -/
def State.domClose (s : State) (c : Cmd) : State :=
  let d := fld (c.word 2) 0 8
  if d = 0 then s.complete c.id stBAD_ARG []
  else if !(s.domOf d).isOpen then s.complete c.id stNOT_OPEN []
  else if s.inuse d ≠ 0 ∨ s.sharesVocab d then s.complete c.id stBUSY []
  else
    let s := (s.dropLoad d false stNOT_OPEN 0 s.tally).dropLoad d true stNOT_OPEN 0 s.tally
    let s := (s.retireEpoch d false s.tally).retireEpoch d true s.tally
    (s.updDom d fun x => { x with isOpen := false, active := none }).complete c.id stOK []

def execDomClose (t : Stamp) (s : State) : Out := onCommand t 0x21 true s fun s c => s.domClose c

/-! ### IMG_ACTIVATE, IMG_RETIRE (R256) -/

def State.imgActivate (s : State) (c : Cmd) : State :=
  let x := s.domOf c.dom
  let num := fld (c.word 2) 0 16
  if !x.isOpen then s.complete c.id stNOT_OPEN []
  else match x.liveSlot num with
    | none => s.complete c.id stBAD_ARG []
    | some sel =>
      if x.active = some sel then s.complete c.id stNOEFFECT []
      else match x.epoch sel with
        | none => s.complete c.id stBAD_ARG []
        | some e =>
          if e.everAct then s.complete c.id stBAD_ARG []
          else
            let s := s.setDom c.dom { x.setEpoch sel (some { e with everAct := true }) with active := some sel }
            let s := s.logEpoch 1 c.dom num 0 s.tally
            let s := match x.active with
              | some old => s.retireIfDone c.dom old s.tally
              | none => s
            s.complete c.id stOK []

def execImgActivate (t : Stamp) (s : State) : Out := onCommand t 0x23 false s fun s c => s.imgActivate c

def State.imgRetire (s : State) (c : Cmd) : State :=
  let x := s.domOf c.dom
  let num := fld (c.word 2) 0 16
  if !x.isOpen then s.complete c.id stNOT_OPEN []
  else match x.liveSlot num with
    | none => s.complete c.id stBAD_ARG []
    | some sel =>
      match x.epoch sel with
      | none => s.complete c.id stBAD_ARG []
      | some e =>
        if e.everAct || decide (s.epCount c.dom sel ≠ 0) then s.complete c.id stBUSY []
        else (s.retireEpoch c.dom sel s.tally).complete c.id stOK []

def execImgRetire (t : Stamp) (s : State) : Out := onCommand t 0x24 false s fun s c => s.imgRetire c

/-! ### TT_SWITCH (R258, 08 R184) -/

/-- The NSLOT of the command goes to the inactive bank, or to both while there is no active bank. -/
def State.ttSwitch (s : State) (c : Cmd) : State :=
  let n := fld (c.word 2) 0 2
  let k := fld (c.word 2) 2 9
  let q := (s.setTtc n ((s.ttc n).setNslots k k)).ttRequest n s.tally
  q.1.complete c.id (if q.2 then stOK else stBAD_ARG) []

def execTtSwitch (t : Stamp) (s : State) : Out := onCommand t 0x30 true s fun s c => s.ttSwitch c

end Sys2Proof.Machine
end

