-- ==== Sys2Proof/Machine/Manifest.lean ====
section
/-! DEFINITION. Manifest.lean: admission, cancellation, retirement, migration and reuse (07 R136-R153; 11 R250-R252; 13 R292,
R307): ADMIT, CANCEL, RETIRE, MIGRATE_OUT, MIGRATE_IN, REUSE, HAND_OVER, MIG_OUT_TIMEOUT, MIGRATE_IN_DONE, MIGRATE_IN_TIMEOUT,
REUSE_DONE, REPLAY_TRANSFER. -/

namespace Sys2Proof.Machine

/-! ### Allocation and freeing (R136, R145, R183) -/

/-- The entry that is allocated next: indices never used in order, then freed ones, oldest first. -/
def Manifest.next (m : Manifest) : Option Nat := if m.fresh < 65536 then some m.fresh else m.freed.head?

def Manifest.take (m : Manifest) : Manifest :=
  if m.fresh < 65536 then { m with fresh := m.fresh + 1 } else { m with freed := m.freed.drop 1 }

def genNext16 (g : Nat) : Nat := if g ≥ 0xFFFF then 1 else g + 1

/-- A freed entry: its state and generation move on, and its data stays in place until it is filled again (14 R311). -/
def Entry.freed (e : Entry) : Entry := { e with state := .free, gen := genNext16 e.gen, req := Req.init }

/-- An entry becomes FREE: what remains of its graphs is torn down, its generation moves on, and a superseded epoch without
entries retires. DESIGN CHOICE: the tree frame of a step that is still open is freed with it (log entry 99). -/
def State.freeEntry (s : State) (i : Nat) (t : Stamp) : State :=
  let e := s.entry i
  let h := s.handleOf i
  let s := (s.teardown h t).1.closeStep i
  let s := { s with txt := { s.txt with views := s.txt.views.filter fun v => !decide (v.handle = h) } }
  let s := s.updEntry i Entry.freed
  ({ s with man := { s.man with freed := s.man.freed ++ [i] } } : State).retireIfDone e.dom e.esel t

/-! ### The checks of R139 -/

/-- The page list and its pages (R139 BAD_PAGES, R291). -/
def State.pagesOk (s : State) (d plist npage : Nat) : Bool :=
  let rs := s.runs plist npage
  let ctl := fun (r : Run) => decide (r.role = 0)
  decide (npage ≠ 0) && decide (plist % 64 = 0) && s.owned d plist (8 * npage) &&
    (match rs with
      | r :: rest => ctl r && decide (r.run = 0) && !rest.any ctl
      | [] => false) &&
    rs.all fun r => decide (r.role ≤ 4) && !r.resv && decide (r.owner = d) && s.ownedWr d r.page (2 ^ r.run * 65536)

/-- The checks of R139 that read no memory, in order; `epoch` says that the epoch the entry would be bound to is live. -/
def State.admitEarly (s : State) (d : Nat) (epoch : Bool) : Option Nat :=
  let x := s.domOf d
  if !s.man.en then some stDISABLED
  else if !x.isOpen then some stNOT_OPEN
  else if !epoch then some stNO_EPOCH
  else if x.quota ≠ 0 ∧ x.quota ≤ s.inuse d then some stQUOTA
  else if s.man.next.isNone then some stFULL
  else none

/-- The first failing check of R139 for a domain; `args` says that the arguments are allowed. -/
def State.admitCheck (s : State) (d : Nat) (epoch : Bool) (plist npage : Nat) (args : Bool) : Option Nat :=
  match s.admitEarly d epoch with
  | some st => some st
  | none =>
    if !s.pagesOk d plist npage then some stBAD_PAGES
    else if !args then some stBAD_ARG
    else none

/-- A command that comes to its page list while no request is issued waits (13 R309; log entry 84). -/
def State.pageWait (s : State) (d : Nat) (epoch : Bool) : Bool := !s.mem.en && (s.admitEarly d epoch).isNone

/-- A new entry in the given state, bound to an epoch slot, with its page headers written (R140, R292). -/
def State.allocate (s : State) (i : Nat) (st : EState) (d : Nat) (sel : Bool) (num prio plist npage : Nat) : State :=
  let gen := (s.entry i).gen
  let s := { s with man := s.man.take }
  (s.setEntry i { Entry.init gen with
    state := st, dom := d, esel := sel, epoch := num, prio := prio, plist := plist, npage := npage }).writeHeaders i

/-- The committed automaton states of a new request (R27 START). -/
def State.startStates (s : State) (i : Nat) : State :=
  match s.epochOf (s.entry i) with
  | some ep => { s with tok := { s.tok with states := Tab.set s.tok.states i ep.start } }
  | none => s

/-! ### ADMIT (R139-R141) -/

def wordsZero (c : Cmd) (from' : Nat) : Bool := (c.words.drop from').all fun w => decide (w = 0)

def State.admitCmd (s : State) (c : Cmd) : State :=
  let w2 := c.word 2
  let w3 := c.word 3
  let plist := fld w3 0 40
  let npage := fld w3 40 8
  let pdl := fld w2 5 20
  let args := decide (pdl ≤ 1000000) && decide (fld w2 25 39 = 0) && decide (fld w3 48 16 = 0) && wordsZero c 4
  let x := s.domOf c.dom
  match s.admitCheck c.dom x.activeEpoch.isSome plist npage args, s.man.next, x.active, x.activeEpoch with
  | none, some i, some sel, some ep =>
    let np := bitAt w2 4
    let s := s.allocate i (if np then .answer else .admitted) c.dom sel ep.num (fld w2 0 4) plist npage
    let s := ((s.updEntry i fun e => { e with np := np, pdl := pdl }).startStates i)
    (s.count 2 0x10 1).complete c.id stOK [(s.handleOf i).setWidth 64]
  | st, _, _, _ => (s.count 2 0x11 1).complete c.id (st.getD stNO_EPOCH) []

def execAdmit (t : Stamp) (s : State) : Out :=
  onCommandWhen t 0x10 false (fun s c => s.pageWait c.dom (s.domOf c.dom).activeEpoch.isSome) s fun s c => s.admitCmd c

/-! ### CANCEL (R142, R143, R252) -/

/-- The state that decides a CANCEL: that of the fault for a recovering entry. -/
def Entry.prior (e : Entry) : EState :=
  match e.req.recov with
  | some r => if e.state = .recover then r.prior else e.state
  | none => e.state

/-- The effect of a CANCEL on an entry that can be cancelled. DESIGN CHOICE: it decides for CANCEL also where the final word of a request in
PROMPT, MIG_OUT or RECOVER has left before it, as R142's steps say and R143's comparison does not (log entry 94). -/
def State.cancelEntry (s : State) (i : Nat) (u : Stamp) : State :=
  let e := s.entry i
  let p := e.prior
  let s := s.updEntry i fun e => { e with state := .cancelled, req := { e.req with recov := none } }
  let s := if p = .prompt ∨ p = .answer ∨ p = .migOut then s.rampCancel i u else s
  let s := if p = .migOut then s.completeOpt (e.req.mig.map fun m => m.cmd) stCANCELLED [] else s
  let s := (s.dropTorn ((e.req.recov.map fun r => r.torn).getD [])).endBuild i stCANCELLED []
  let s := s.updReq i fun r => { r with mig := none, pwin := false }
  s.raiseEnd i 3 u u

/-- May the entry be cancelled? -/
def Entry.cancellable (e : Entry) : Bool :=
  decide (e.state ≠ .free) && decide (e.state ≠ .stopped) && decide (e.state ≠ .cancelled) && decide (e.state ≠ .ended)

/-- The entries that a CANCEL by source names (R252). -/
def State.bySource (s : State) (d blk : Nat) (src : Handle) : List Nat :=
  (s.man.entries.filter fun p => decide (p.2.dom = d) && (decide (p.2.state = .migIn) || decide (p.2.state = .reuse)) &&
    (match p.2.req.build with
      | some b => decide (b.srcBlk = blk) && decide (b.src = src)
      | none => false)).map fun p => p.1

/-- The checks of R251 on a handle: the entry, or the status. -/
def State.named (s : State) (h : Handle) (d : Nat) : Except Nat Nat :=
  match s.live h with
  | none => .error stSTALE
  | some i => if (s.entry i).dom ≠ d then .error stFOREIGN else .ok i

def State.cancel (s : State) (c : Cmd) : State :=
  let h : Handle := BitVec.ofNat 32 (fld (c.word 2) 0 32)
  if bitAt (c.word 2) 32 then
    let is := s.bySource c.dom (fld (c.word 2) 33 6) h
    if is.isEmpty then s.complete c.id stSTALE [0]
    else (is.foldl (fun s i => s.cancelEntry i s.tally) (s.count 2 0x12 1)).complete c.id stOK [BitVec.ofNat 64 is.length]
  else match s.named h c.dom with
    | .error st => s.complete c.id st [0]
    | .ok i =>
      if (s.entry i).cancellable then ((s.count 2 0x12 1).cancelEntry i s.tally).complete c.id stOK [1]
      else s.complete c.id stNOEFFECT [0]

def execCancel (t : Stamp) (s : State) : Out := onCommand t 0x11 false s fun s c => s.cancel c

/-! ### RETIRE (R145) -/

def Entry.retirable (e : Entry) : Bool :=
  match e.state with
  | .stopped => e.endv
  | .cancelled => e.endv
  | .ended => e.endv
  | .parked => true
  | _ => false

def State.retire (s : State) (c : Cmd) : State :=
  match s.named (BitVec.ofNat 32 (fld (c.word 2) 0 32)) c.dom with
  | .error st => s.complete c.id st []
  | .ok i =>
    if (s.entry i).retirable then ((s.count 2 0x13 1).freeEntry i s.tally).complete c.id stOK []
    else s.complete c.id stBUSY []

def execRetire (t : Stamp) (s : State) : Out := onCommand t 0x12 false s fun s c => s.retire c

/-! ### MIGRATE_OUT (R147-R149) -/

/-- May the entry's state be migrated (R147)? -/
def Entry.migratable (e : Entry) : Bool :=
  match e.state with
  | .answer => true
  | .parked => true
  | .ended => decide (e.outcome = 0)
  | _ => false

def State.migrateOut (s : State) (c : Cmd) : State :=
  match s.named (BitVec.ofNat 32 (fld (c.word 2) 0 32)) c.dom with
  | .error st => s.complete c.id st []
  | .ok i =>
    let e := s.entry i
    let w := c.word 3
    let h := if fld w 0 32 = 0 then e.committed else fld w 0 32
    let ferry := bitAt w 32
    let peer := fld w 33 6
    if !e.migratable then s.complete c.id stBUSY []
    else if e.spec then s.complete c.id stBUSY_SPEC []
    else if h < e.committed ∨ (e.state ≠ .answer ∧ h ≠ e.committed) ∨ (ferry ∧ peer = s.clk.blkNum) then
      s.complete c.id stBAD_ARG []
    else s.updEntry i fun e => { e with
      state := .migOut, migH := h, mmode := ferry, peer := peer
      req := { e.req with mig := some ⟨s.tally, c.id, none, 0, false, s.man.migto⟩ } }

def execMigrateOut (t : Stamp) (s : State) : Out := onCommand t 0x13 false s fun s c => s.migrateOut c

/-! ### The state that a migration carries (13 R307; log entry 17) -/

/-- The bytes of an area that a transfer carries: its role, its model, and their number. -/
abbrev Seg := Nat × Nat × Nat

/-- Bytes of the KV rings of a model (R295). -/
def State.kvBytes (s : State) (ep : Epoch) (m : Nat) : Nat :=
  let a := (ep.models[m]?).getD 0
  if a = 0 then 0
  else
    let h := s.modelHdr a
    h.layers * h.kvheads * 2 * h.win * (h.hd + 4)

/-- The areas of a page list that a transfer carries, in the order in which the list names them first: role and model. -/
def sentAreas (rs : List Run) : List (Nat × Nat) :=
  ((rs.filter fun r => decide (1 ≤ r.role) && decide (r.role ≤ 3)).map fun r => (r.role, if r.role = 3 then r.model else 0)).eraseDups

/-- The used part of each area (R307): the prompt view's length, 4 bytes a token, each ring's size; no more than the area holds. -/
def State.segsOf (s : State) (i pview h : Nat) : List Seg :=
  let e := s.entry i
  let rs := s.runs e.plist e.npage
  (sentAreas rs).map fun a =>
    let used := if a.1 = 1 then pview else if a.1 = 2 then 4 * h else match s.epochOf e with
      | some ep => s.kvBytes ep a.2
      | none => 0
    (a.1, a.2, min used (areaSize (areaPages rs a.1 a.2)))

def segBytes (l : List Seg) : Nat := l.foldl (fun a x => a + x.2.2) 0

/-- The state bytes of an entry: its areas in list order, then the current copy. None where a read fails the check of R287 or R292. -/
def State.stateBytes (s : State) (i : Nat) : Option (List Byte) :=
  let e := s.entry i
  let rs := s.runs e.plist e.npage
  let segs := s.segsOf i e.req.pview e.committed
  match s.ctlPage i with
  | none => none
  | some r =>
    if s.ctlOk i r && segs.all fun x => s.areaReads e.dom (areaPages rs x.1 x.2.1) 0 x.2.2 then
      some (segs.flatMap (fun x => (s.rdArea (areaPages rs x.1 x.2.1) 0 x.2.2).map fun b => b.getD 0) ++
        s.rd (copyAddr r.page (s.flushHdr r.page).cur) copySize)
    else none

/-- How many they are: what an OFFER says. -/
def State.stateSize (s : State) (i : Nat) : Nat := segBytes (s.segsOf i (s.entry i).req.pview (s.entry i).committed) + copySize

/-- A read of an entry's state that failed its check trips the detector of the memory port for the request, and is counted (13 R287, R292;
log entry 81). -/
def State.stateTrip (s : State) (i : Nat) (t : Stamp) : State :=
  let e := s.entry i
  let rs := s.runs e.plist e.npage
  match s.ctlPage i with
  | none => s.memTrip 0 i t
  | some r =>
    if !s.ctlOk i r then (if s.ownedWr e.dom r.page 65536 then s.stale else s.viol).memTrip 0 i t
    else match (s.segsOf i e.req.pview e.committed).find? fun x => !s.areaReads e.dom (areaPages rs x.1 x.2.1) 0 x.2.2 with
      | some x => (s.areaFail e.dom (areaPages rs x.1 x.2.1) 0 x.2.2).memTrip 0 i t
      | none => s

/-- The group that joins this block to a peer and is up. -/
def State.groupTo (s : State) (peer : Nat) : Option Nat :=
  (List.range 8).find? fun g => (s.group g).isUp && decide ((s.group g).peer = peer)

/-- The OFFER of an entry's transfer (R307). -/
def State.offerPkt (s : State) (i xfer bytes : Nat) : TxPkt :=
  let e := s.entry i
  ⟨2, e.dom, xfer, .offer (s.handleOf i) e.epoch e.migH bytes, false⟩

/-- OFFER, the STATE packets and STATE_END of an entry go to the group's transmit queue (R307). -/
def State.sendState (s : State) (i g xfer : Nat) (bs : List Byte) : State :=
  let d := (s.entry i).dom
  s.sendStream g (s.offerPkt i xfer bs.length ::
    ((inPackets bs.length bs).map fun b => (⟨3, d, xfer, .data b, false⟩ : TxPkt)) ++
      [(⟨4, d, xfer, .crc (crc32c bs), false⟩ : TxPkt)])

/-- Conditions 1 to 3 of R148. -/
def State.drained (s : State) (i : Nat) : Bool :=
  let e := s.entry i
  let h := s.handleOf i
  decide (e.committed = e.migH) && decide (e.pend = 0) && e.req.chunks.isEmpty &&
    !(s.dsp.insts.any fun p => decide (p.2.handle = h)) &&
    !((s.dsp.startQ ++ s.dsp.outside).any fun tr => decide (tr.handle = h))

/-- The hand-over (R148): END with MIGRATED, the completion, and the entry is freed. -/
def State.handOver (s : State) (i : Nat) (t : Stamp) : State :=
  let e := s.entry i
  let s := (s.raiseEnd i 7 t t).count 2 0x14 1
  let s := s.completeOpt (e.req.mig.map fun m => m.cmd) stOK [BitVec.ofNat 64 e.committed]
  s.freeEntry i t

/-- The FERRY transfer of an entry begins with a flush and its OFFER; XFER is a free value (log entry 2). A state that cannot be read trips
the detector of the memory port for the request (13 R287). -/
def State.startTransfer (s : State) (i g : Nat) (m : MigOut) (t : Stamp) : State :=
  let s := s.flush i t
  if (s.entry i).state ≠ .migOut then s      -- the flush failed its check, and the request recovers
  else match s.stateBytes i with
    | none => s.stateTrip i t
    | some bs =>
      let x := (Config.xferNum s.fresh).toNat
      (s.draw.updReq i fun r => { r with mig := some { m with xfer := some x, offer := t } }).sendState i g x bs

/-- What the hand-over conditions allow at t: PAGES flushes and hands over; FERRY starts its transfer, and hands over once the
peer has acknowledged it. -/
def State.tryHandOver (s : State) (i : Nat) (t : Stamp) : State :=
  let e := s.entry i
  match e.req.mig with
  | none => s
  | some m =>
    if e.state ≠ .migOut ∨ s.drained i = false ∨ s.cmdOpen m.cmd = false then s
    else if !e.mmode then
      let s := s.flush i t
      if (s.entry i).state = .migOut then s.handOver i t else s
    else if m.acked then s.handOver i t
    else match m.xfer, s.groupTo e.peer with
      | none, some g => s.startTransfer i g m t
      | _, _ => s

def execHandOver (t : Stamp) (idx : BitVec 16) (s : State) : Out :=
  let s := s.upToWhen t (kSub 2) fun u => u.drained idx.toNat
  if !s.running || !s.mem.en then .next s else .next (s.tryHandOver idx.toNat s.tally)

def execMigOutTimeout (t : Stamp) (idx : BitVec 16) (s : State) : Out :=
  let s := s.upTo t (kSub 2)
  let i := idx.toNat
  let e := s.entry i
  match e.req.mig with
  | none => .next s
  | some m =>
    if s.running && decide (e.state = .migOut) && decide (e.committed < e.migH) && decide (m.stamp + 2400 * m.limit ≤ s.tally) then
      .next ((s.migAbandon i stTIMEOUT).finishAnswer i s.tally)
    else .next s

/-! ### MIGRATE_IN (R150; 14 R325) -/

/-- The peer was reported lost and has not come up since (R325). -/
def State.peerGone (s : State) (blk : Nat) : Bool :=
  s.fry.grp.any fun (g : Group) => g.lost && decide (g.peer = blk)

/-- The mirror slot of a source handle, if it is valid for the command (R325). -/
def State.mirrorSlot (s : State) (src : Handle) (d epoch : Nat) : Option Nat :=
  let a := s.fry.mirbase + hIdx src * 65536
  let h := s.flushHdr a
  if s.owned 0 a 65536 && decide (fld (s.rd64 a) 32 32 = src.toNat) && decide (h.dom = d) && decide (h.epoch = epoch) then
    some a
  else none

/-- Received bytes go to their places in the entry's areas; the last ones are the state copy. Answers whether every access passed its check;
one that fails trips the detector of the memory port for the new request (13 R287). -/
def State.placeState (s : State) (i : Nat) (t : Stamp) : List Seg → List Byte → State × Bool
  | [], bs =>
    match s.ctlPage i with
    | some r => if s.ctlOk i r then (s.wr (copyAddr r.page false) (fitBytes copySize bs), true) else (s.ctlTrip i r t, false)
    | none => (s, false)
  | x :: r, bs =>
    let e := s.entry i
    let q := s.wrArea e.dom (areaPages (s.runs e.plist e.npage) x.1 x.2.1) 0 (bs.take x.2.2)
    if q.2 then q.1.placeState i t r (bs.drop x.2.2) else (q.1.memTrip 0 i t, false)

/-- The segments of a received state: the prompt view has what the others leave. -/
def State.recvSegs (s : State) (i : Nat) (o : Offer) : List Seg :=
  s.segsOf i (o.bytes - segBytes (s.segsOf i 0 o.h) - copySize) o.h

/-- The state of an offer whose STATE_END has come is placed and checked (R307): ACK, or NAK with its reason. -/
def State.receive (s : State) (i : Nat) (o : Offer) (t : Stamp) : State :=
  let e := s.entry i
  match e.req.build with
  | none => s
  | some b =>
    let segs := s.recvSegs i o
    let q := s.placeState i t segs o.got
    let s := { q.1 with fry := { q.1.fry with offers := q.1.fry.offers.filter fun p =>
      !(decide (p.group = o.group) && decide (p.xfer = o.xfer)) } }
    let cm := match s.ctlPage i with
      | some r => (s.readCopy (copyAddr r.page false)).committed
      | none => 0
    let fits := q.2 && decide (o.dom = e.dom) && decide (o.epoch = e.epoch) && decide (o.h = b.h) && decide (cm = b.h) &&
      decide (segBytes segs + copySize = o.bytes)
    let sound := decide (crc32c o.got = o.crc) && decide (o.got.length = o.bytes)
    let mark := fun (f : Build → Build) => s.updReq i fun r => { r with build := r.build.map f }
    if fits && sound then (mark fun b => { b with arrived := true }).sendAck o.group o.dom o.xfer
    else (mark fun b => { b with refused := true }).sendNak o.group o.dom o.xfer (if fits then 2 else 1)

/-- Does a MIGRATE_IN meet an offer: the offer waits for it for the receiver's MIGTO (R307), half open (00 R3)? -/
def State.offerMeets (s : State) (o : Offer) (b : Build) : Bool := decide (b.stamp < o.stamp + 2400 * s.man.migto)

/-- The offer that a MIGRATE_IN entry in FERRY mode waits for: from its source block, with its source handle. -/
def State.offerFor (s : State) (b : Build) : Option Offer :=
  s.fry.offers.find? fun o => decide ((s.group o.group).peer = b.srcBlk) && decide (o.src = b.src) && s.offerMeets o b

/-- The entry that an offer has met and that waits for its state, within its own limit (R150). -/
def State.waiterOf (s : State) (o : Offer) : Option Nat :=
  (s.man.entries.find? fun p => decide (p.2.state = .migIn) && p.2.mmode && (match p.2.req.build with
    | some b => decide (b.srcBlk = (s.group o.group).peer) && decide (b.src = o.src) && !b.arrived && !b.refused &&
        s.offerMeets o b && decide (s.tally < b.stamp + 2400 * b.limit)
    | none => false)).map fun p => p.1

/-- The states whose last packet came while no request was issued are placed once requests are (13 R309). -/
def State.receiveDone (s : State) (t : Stamp) : State :=
  (s.fry.offers.filter fun o => o.done).foldl (fun s o => match s.waiterOf o with
    | some i => s.receive i o t
    | none => s) s

def State.migrateIn (s : State) (c : Cmd) : State :=
  let w2 := c.word 2
  let w3 := c.word 3
  let w4 := c.word 4
  let plist := fld w4 0 40
  let npage := fld w4 40 8
  let args := decide (fld w2 28 36 = 0) && decide (fld w4 48 16 = 0) && wordsZero c 5
  let num := fld w2 0 16
  let slot := (s.domOf c.dom).liveSlot num
  match s.admitCheck c.dom slot.isSome plist npage args, s.man.next, slot with
  | none, some i, some sel =>
    let blk := fld w2 22 6
    let src : Handle := BitVec.ofNat 32 (fld w3 32 32)
    let ferry := bitAt w2 20
    let adopt := !ferry && s.peerGone blk
    let mirror := adopt && (s.mirrorSlot src c.dom num).isSome
    let b : Build := ⟨c.id, s.tally, s.man.migto, fld w3 0 32, mirror, adopt, blk, src, bitAt w2 21, false, false, false, 0, none,
      .pass, false, none, [], 0, [], 0⟩
    let s := s.allocate i .migIn c.dom sel num (fld w2 16 4) plist npage
    let s := s.updEntry i fun e => { e with mmode := ferry, peer := blk, req := { e.req with build := some b } }
    match if ferry then s.offerFor b else none with
    | some o => if o.done then s.receive i o s.tally else s
    | none => s
  | st, _, _ => s.complete c.id (st.getD stNO_EPOCH) []

def execMigrateIn (t : Stamp) (s : State) : Out :=
  onCommandWhen t 0x14 false (fun s c => s.pageWait c.dom ((s.domOf c.dom).liveSlot (fld (c.word 2) 0 16)).isSome) s
    fun s c => s.migrateIn c

/-- A MIGRATE_IN fails: its entry is freed (R150). -/
def State.failIn (s : State) (i : Nat) (st : Nat) (t : Stamp) : State := (s.endBuild i st []).freeEntry i t

/-- The received copy: a mirror slot's, the flushed one in PAGES mode, or the one that the Ferry brought. -/
def State.inCopy (s : State) (i : Nat) (b : Build) : Option (SCopy × Bool) :=
  let e := s.entry i
  if b.mirror then
    (s.mirrorSlot b.src e.dom e.epoch).map fun a => (s.readCopy (a + 0x100), true)
  else match s.ctlPage i with
    | none => none
    | some r =>
      if e.mmode then some (s.readCopy (copyAddr r.page false), decide (areaSize (areaPages (s.runs e.plist e.npage) 2 0) < 4 * b.h))
      else
        let h := s.flushHdr r.page
        if h.dom = e.dom ∧ h.epoch = e.epoch then some (s.readCopy (copyAddr r.page h.cur), h.logfull) else none

/-- The state is loaded and checked (R150, R325): the entry enters ANSWER or PARKED. -/
def State.loadIn (s : State) (i : Nat) (b : Build) (t : Stamp) : State :=
  match s.inCopy i b with
  | none => s.failIn i stMISMATCH t
  | some (c, full) =>
    if c.committed ≠ b.h then s.failIn i stMISMATCH t
    else
      let c := if b.mirror then { c with kv := c.kv.map fun k => { k with seq := none } } else c
      let s := (s.install i c).updEntry i fun e => { e with
        state := if b.park then .parked else .answer
        committed := c.committed, aseq := c.aseq
        req := { e.req with logfull := full, flushed := true } }
      let s := if b.adopted then
          s.logRec 0x0A 2 0 (nb b.mirror) (s.entry i).dom false t ((s.handleOf i).setWidth 64)
            (pack 64 [(0, b.srcBlk), (32, b.src.toNat)]) (BitVec.ofNat 64 b.h)
        else s
      let s := (s.count 2 0x15 1).endBuild i stOK [(s.handleOf i).setWidth 64]
      if b.mirror || (s.entry i).mmode then s.firstCopy i t else s

/-- The control page is compared before it is used: a page that fails trips the memory port's detector, and the command fails (13 R287,
R292). -/
def State.finishIn (s : State) (i : Nat) (b : Build) (t : Stamp) : State :=
  match s.ctlPage i with
  | none => s.loadIn i b t
  | some r => if s.ctlOk i r then s.loadIn i b t else (s.ctlTrip i r t).failIn i stMISMATCH t

def execMigrateInDone (t : Stamp) (idx : BitVec 16) (s : State) : Out :=
  let s := s.upTo t (kSub 2)
  let i := idx.toNat
  let e := s.entry i
  match e.req.build with
  | none => .next s
  | some b =>
    if !s.running || decide (e.state ≠ .migIn) then .next s
    else if b.refused then .next (s.failIn i stMISMATCH s.tally)
    else if (e.mmode && !b.arrived) || !s.mem.en then .next s
    else .next (s.finishIn i b s.tally)

def execMigrateInTimeout (t : Stamp) (idx : BitVec 16) (s : State) : Out :=
  let s := s.upTo t (kSub 2)
  let i := idx.toNat
  let e := s.entry i
  match e.req.build with
  | none => .next s
  | some b =>
    if s.running && decide (e.state = .migIn) && e.mmode && !b.arrived && decide (b.stamp + 2400 * b.limit ≤ s.tally) then
      .next (s.failIn i stTIMEOUT s.tally)
    else .next s

/-! ### REUSE (R151, R152) -/

/-- The data of an area is copied byte for byte, as far as both areas reach. An access that fails its check trips the memory port's
detector for the new request (13 R287, R292), and the copy ends there. -/
def State.copyArea (s : State) (i src role model : Nat) (t : Stamp) : State :=
  let a := s.entry src
  let e := s.entry i
  let ps := areaPages (s.runs a.plist a.npage) role model
  let qs := areaPages (s.runs e.plist e.npage) role model
  let n := min (areaSize ps) (areaSize qs)
  if e.state ≠ .reuse then s
  else if !s.areaReads e.dom ps 0 n then (s.areaFail e.dom ps 0 n).memTrip 0 i t
  else
    let q := s.wrArea e.dom qs 0 ((s.rdArea ps 0 n).map fun b => b.getD 0)
    if q.2 then q.1 else q.1.memTrip 0 i t

/-- The program area of a page list: of the control page and of every PROG page its bytes, with their run (13 R291). -/
def progAreas (rs : List Run) : List (Nat × Nat × Run) :=
  rs.flatMap fun r =>
    if r.role = 0 then [(r.page + 0x8000, 0x8000, r)]
    else if r.role = 4 then (List.range (2 ^ r.run)).map fun k => (r.page + k * 65536 + 0x40, 0xFFC0, r)
    else []

/-- One page of the program area is copied through the state cache (13 R296), from p to q; an access that fails its check trips the memory
port's detector for the new request. -/
def State.copyProgPage (s : State) (i : Nat) (t : Stamp) (p q : Nat × Nat × Run) : State :=
  let d := (s.entry i).dom
  let a := p.1 / 65536 * 65536
  let b := q.1 / 65536 * 65536
  if (s.entry i).state ≠ .reuse then s
  else if !s.owned d a 65536 then s.viol.memTrip 0 i t
  else if !s.pageOk a p.2.2.owner p.2.2.gen then s.stale.memTrip 0 i t
  else if !s.ownedWr d b 65536 then s.viol.memTrip 0 i t
  else if !s.pageOk b q.2.2.owner q.2.2.gen then s.memTrip 0 i t
  else
    let x := s.scRead p.1 p.2.1 p.2.2.owner p.2.2.gen
    x.1.scStore q.1 x.2 q.2.2.owner q.2.2.gen

/-- The program area, as far as both page lists reach. -/
def State.copyProgram (s : State) (i src : Nat) (t : Stamp) : State :=
  let a := s.entry src
  let e := s.entry i
  ((progAreas (s.runs a.plist a.npage)).zip (progAreas (s.runs e.plist e.npage))).foldl (fun s x => s.copyProgPage i t x.1 x.2) s

/-- The source's state pages are copied to the new ones: the areas, the program area, and the state. -/
def State.copyPages (s : State) (i src : Nat) (t : Stamp) : State :=
  let s := (s.copyArea i src 1 0 t).copyArea i src 2 0 t
  let s := (List.range 4).foldl (fun s m => s.copyArea i src 3 m t) s
  let s := s.copyProgram i src t
  if (s.entry i).state = .reuse then s.firstCopy i t else s

/-- The state that a new entry takes from its source: all of it, or, for a re-screen, the bound epoch's initial state. -/
def State.reuseState (s : State) (i src : Nat) (screen : Bool) : State :=
  let a := s.entry src
  let s := s.updEntry i fun e => { e with
    committed := a.committed, aseq := a.aseq
    req := if screen then { e.req with pview := a.req.pview, logfull := a.req.logfull }
      else { e.req with
        pview := a.req.pview, logfull := a.req.logfull, kv := a.req.kv, acc := a.req.acc, ptext := a.req.ptext
        atext := a.req.atext } }
  if screen then s.startStates i else { s with tok := { s.tok with states := Tab.set s.tok.states i (s.four src) } }

/-- The prompt graph of a re-screen runs on the copied prompt view (R152). -/
def State.screenPrompt (s : State) (i : Nat) (t : Stamp) : State :=
  let e := s.entry i
  if e.req.pview = 0 then s
  else match (s.epochOf e).bind fun x => x.pgraph with
    | some g => s.trigger ⟨s.handleOf i, g, false, 0, none, 0, true, 0, false, BitVec.allOnes 64, t⟩
    | none => s

/-- The live epoch that a REUSE selects. -/
def State.reuseSlot (s : State) (d : Nat) (w : Word) : Option Bool :=
  let x := s.domOf d
  if bitAt w 16 then x.active else x.liveSlot (fld w 0 16)

def State.reuse (s : State) (c : Cmd) : State :=
  let w3 := c.word 3
  let w4 := c.word 4
  let srcH : Handle := BitVec.ofNat 32 (fld (c.word 2) 0 32)
  match s.named srcH c.dom with
  | .error st => s.complete c.id st []
  | .ok src =>
    if (s.entry src).state ≠ .parked then s.complete c.id stSTALE []
    else
      let plist := fld w4 0 40
      let npage := fld w4 40 8
      let args := decide (fld (c.word 2) 32 32 = 0) && decide (fld w3 21 43 = 0) && decide (fld w4 48 16 = 0) && wordsZero c 5
      let slot := s.reuseSlot c.dom w3
      match s.admitCheck c.dom slot.isSome plist npage args, s.man.next, slot with
      | none, some i, some sel =>
        let num := (((s.domOf c.dom).epoch sel).map fun e => e.num).getD 0
        let screen := decide ((s.entry src).epoch ≠ num)
        let full := screen && (s.entry src).req.logfull
        let b : Build := ⟨c.id, s.tally, s.man.migto, (s.entry src).committed, false, false, s.clk.blkNum, srcH, true, true, full,
          screen, 0, none, .pass, false, none, [], 0, [], 0⟩
        let s := s.allocate i .reuse c.dom sel num (fld w3 17 4) plist npage
        let s := s.updReq i fun r => { r with build := some b }
        let s := (s.reuseState i src screen).copyPages i src s.tally
        if screen && !full && decide ((s.entry i).state = .reuse) then (s.count 2 0x16 1).screenPrompt i s.tally else s
      | st, _, _ => s.complete c.id (st.getD stNO_EPOCH) []

/-- REUSE comes to its page lists and waits for memory. -/
def State.reuseWait (s : State) (c : Cmd) : Bool :=
  match s.named (BitVec.ofNat 32 (fld (c.word 2) 0 32)) c.dom with
  | .ok src => decide ((s.entry src).state = .parked) && s.pageWait c.dom (s.reuseSlot c.dom (c.word 3)).isSome
  | .error _ => false

def execReuse (t : Stamp) (s : State) : Out := onCommandWhen t 0x15 false (fun s c => s.reuseWait c) s fun s c => s.reuse c

/-- Has the re-screen of an entry ended: every position replayed and every graph of the request gone? -/
def State.screenDone (s : State) (i : Nat) (b : Build) : Bool :=
  let e := s.entry i
  let h := s.handleOf i
  b.refused || !b.screen ||
    (decide (e.committed ≤ b.nextPos) && !(s.tok.path.any fun f => decide (f.handle = h) && decide (f.stage ≤ 10)) &&
      !(s.dsp.insts.any fun p => decide (p.2.handle = h)) &&
      !((s.dsp.startQ ++ s.dsp.outside).any fun tr => decide (tr.handle = h)))

/-- The outcome of a REUSE (R151, R152). The completion comes before what the outcome itself raises (11 R262); END of a STOP carries the
stamp of the first STOP verdict, or, where the token log cannot be read, the present one (R144). -/
def State.finishReuse (s : State) (i : Nat) (b : Build) (t : Stamp) : State :=
  let a : Act := if b.refused then .stop else b.act
  let res := [(s.handleOf i).setWidth 64, pack 64 [(0, a.code), (3, nb b.esc)]]
  let esc := fun (s : State) => if b.esc then s.escalate i 1 a 0 0 0 t else s
  if a = .stop then
    let at' := b.stopAt.getD t
    let s := s.updEntry i fun e => { e with state := .stopped, req := { e.req with stop := some ⟨1, at'⟩, ended := true } }
    (esc (s.endBuild i stREFUSED res)).raiseEnd i 1 at' t
  else
    let s := s.updEntry i fun e => { e with state := .parked }
    (esc (s.endBuild i stOK res)).firstCopy i t

def execReuseDone (t : Stamp) (idx : BitVec 16) (s : State) : Out :=
  let i := idx.toNat
  let done := fun (u : State) => match (u.entry i).req.build with
    | some b => u.screenDone i b
    | none => true
  let s := s.upToWhen t (kSub 2) done
  match (s.entry i).req.build with
  | none => .next s
  | some b =>
    if s.running && s.mem.en && decide ((s.entry i).state = .reuse) && s.screenDone i b then .next (s.finishReuse i b s.tally)
    else .next s

/-! ### REPLAY_TRANSFER (R152; 14 R321, R324) -/

/-- Is the lane free for a replay transfer at t: in service, and its Token In valid low? -/
def State.laneFree (s : State) (lane : Nat) (t : Stamp) : Bool :=
  !bitAt s.tok.fenced lane && decide (Tab.getD s.tok.readyAt lane 0 ≤ t) &&
    (match Tab.get s.tok.lastCap lane with
      | some c => decide (c < t)
      | none => true)

/-- One replay transfer at position pos: it advances the committed states and drives nothing. -/
def State.replayAt (s : State) (i lane pos x : Nat) (screen : Bool) (t : Stamp) : State :=
  match s.epochOf (s.entry i) with
  | none => s
  | some ep =>
    let old := s.four i
    let f := s.advance ep.slotEn old x
    let v := s.verdictOf ep.slotEn f
    let s := { s with tok := { s.tok with
      states := Tab.set s.tok.states i f
      lastCap := Tab.set s.tok.lastCap lane t } }
    s.push { passFlight .token lane (s.handleOf i) t with
      replay := true, screen := screen, path := [⟨x, v⟩], pos := pos, stage := 7
      touch := [(6, i, 1), (4, i, 2), (4, i, 6)] ++ s.advTouch ep.slotEn old f x }

/-- The next position of the token log: one beyond the area is not logged, and one whose page fails its check trips the memory port's
detector (13 R287, R292). -/
def State.logOk (s : State) (i pos : Nat) : Bool :=
  let e := s.entry i
  let ps := areaPages (s.runs e.plist e.npage) 2 0
  s.areaReads e.dom ps (4 * pos) 4 || decide (areaSize ps < 4 * pos + 4)

def State.logTrip (s : State) (i pos : Nat) (t : Stamp) : State :=
  let e := s.entry i
  (s.areaFail e.dom (areaPages (s.runs e.plist e.npage) 2 0) (4 * pos) 4).memTrip 0 i t

/-- The next replay transfer of a re-screen. -/
def State.replayScreen (s : State) (i lane : Nat) (b : Build) (t : Stamp) : State :=
  let put := fun (f : Build → Build) => s.updReq i fun r => { r with build := r.build.map f }
  if !b.screen || b.refused || decide ((s.entry i).committed ≤ b.nextPos) || !spaced b.lastRep t then s
  else if !s.logOk i b.nextPos then s.logTrip i b.nextPos t
  else match s.tlogRead i b.nextPos with
    | none => put fun b => { b with refused := true }
    | some x => (put fun b => { b with nextPos := b.nextPos + 1, lastRep := some t }).replayAt i lane b.nextPos x true t

/-- The next replay transfer of a recovery; an unlogged position fails the recovery (R324 TLOG). -/
def State.replayRecover (s : State) (i lane : Nat) (v : Recovery) (t : Stamp) : State :=
  match v.restored with
  | none => s
  | some r0 =>
    if t < r0 ∨ (s.entry i).committed ≤ v.nextPos ∨ spaced v.lastRep t = false then s
    else if !s.logOk i v.nextPos then s.logTrip i v.nextPos t
    else match s.tlogRead i v.nextPos with
      | none => s.failRecovery i 3 t
      | some x =>
        (s.updReq i fun r => { r with recov := some { v with nextPos := v.nextPos + 1, lastRep := some t } }).replayAt i lane v.nextPos
          x false t

def execReplayTransfer (t : Stamp) (lane : Fin 8) (idx : BitVec 16) (s : State) : Out :=
  let s := s.upTo t (kSub 6)
  let i := idx.toNat
  let e := s.entry i
  if !s.running || !s.tokEn || !s.mem.en || !s.laneFree lane s.tally then .next s
  else match e.state, e.req.build, e.req.recov with
    | .reuse, some b, _ => .next (s.replayScreen i lane b s.tally)
    | .recover, _, some v => .next (s.replayRecover i lane v s.tally)
    | _, _, _ => .next s

end Sys2Proof.Machine
end

