-- ==== Sys2Proof/Machine/Image.lean ====
section
/-! DEFINITION. Image.lean: the loader's checks of an epoch image, part by part (11 R255; 02 R27; 03 R51; 04 R70, R78, R88; 05 R92;
06 R121, R131; 08 R158; 09 R202). A failure is (PART, INDEX, ADDR) of R255. -/

namespace Sys2Proof.Machine

abbrev Fail := Nat × Nat × Nat

def orFail (ok : Bool) (f : Fail) : Option Fail := if ok then none else some f

/-- The first failure among numbered items. -/
def eachItem (n : Nat) (f : Nat → Option Fail) : Option Fail := (List.range n).findSome? f

/-- The first word of a range that carries the poison tag (R255). -/
def State.badWord (s : State) (a n : Nat) : Option Nat := s.mem.pois.find? fun w => decide (w < a + n) && decide (a < w + 8)

/-- A range of the image: in regions owned by the domain, and no word poisoned. -/
def State.rangeFail (s : State) (d part idx at' a n : Nat) : Option Fail :=
  if !s.owned d a n then some (part, idx, at')
  else (s.badWord a n).map fun w => (part, idx, w)

/-- n words of the token tier from a on: the first that lies outside the domain's regions or is poisoned fails (R255). -/
def State.wordsFail (s : State) (d a n : Nat) : Option Fail :=
  if s.owned d a (8 * n) then (s.badWord a (8 * n)).map fun w => (2, 0, w)
  else eachItem n fun k => orFail (s.owned d (a + 8 * k) 8 && !s.poisoned (a + 8 * k) 8) (2, 0, a + 8 * k)

/-! ### Part 1: the directory -/

structure Dir where
  dom : Nat
  img : Nat
  ws  : List Word
deriving DecidableEq, Repr

def State.readDir (s : State) (d img : Nat) : Dir := ⟨d, img, (List.range 64).map fun n => s.rd64 (img + 8 * n)⟩

def Dir.w (x : Dir) (n : Nat) : Word := (x.ws[n]?).getD 0

def Dir.nmask (x : Dir) : Nat := fld (x.w 0) 8 16
def Dir.nhdr (x : Dir) : Nat := fld (x.w 0) 24 21
def Dir.hdrs (x : Dir) : Nat := fld (x.w 1) 0 40
def Dir.pool (x : Dir) : Nat := fld (x.w 2) 0 40
def Dir.npool (x : Dir) : Nat := fld (x.w 2) 40 22
def Dir.masks (x : Dir) : Nat := fld (x.w 3) 0 40
def Dir.slotEn (x : Dir) : BitVec 4 := BitVec.ofNat 4 (fld (x.w 4) 0 4)
def Dir.kind (x : Dir) (k : Nat) : Nat := fld (x.w 4) (4 + 2 * k) 2
def Dir.stopTok (x : Dir) : Nat := fld (x.w 4) 12 18
def Dir.vocab (x : Dir) : Nat := fld (x.w 4) 30 5
def Dir.pvocab (x : Dir) : Nat := fld (x.w 4) 35 5
def Dir.tvocab (x : Dir) (k : Nat) : Nat := fld (x.w 4) (40 + 5 * k) 5
def Dir.start (x : Dir) : Four := ⟨fld (x.w 5) 0 20, fld (x.w 5) 20 20, fld (x.w 5) 40 20, fld (x.w 6) 0 20⟩
def Dir.redact (x : Dir) : Nat := fld (x.w 6) 20 18
def Dir.nrepl (x : Dir) : Nat := fld (x.w 6) 38 7
def Dir.repl (x : Dir) : Nat := fld (x.w 7) 0 40
def Dir.gdir (x : Dir) : Nat := fld (x.w 8) 0 40
def Dir.ngraph (x : Dir) : Nat := fld (x.w 8) 40 11
def Dir.pgraph (x : Dir) : Option Nat := if bitAt (x.w 9) 10 then some (fld (x.w 9) 0 10) else none
def Dir.cgraph (x : Dir) : Option Nat := if bitAt (x.w 9) 21 then some (fld (x.w 9) 11 10) else none
def Dir.model (x : Dir) (k : Nat) : Nat := fld (x.w (10 + k)) 0 40
def Dir.plan (x : Dir) (k : Nat) : Nat := fld (x.w (14 + k)) 0 40
def Dir.ens (x : Dir) (k : Nat) : Nat := fld (x.w (18 + k)) 0 40
def Dir.pset (x : Dir) (k : Nat) : Nat := fld (x.w (26 + k)) 0 40
def Dir.lkind (x : Dir) (i : Nat) : Nat := fld (x.w (34 + i)) 0 2
def Dir.lslot (x : Dir) (i : Nat) : Nat := fld (x.w (34 + i)) 2 4
def Dir.lshared (x : Dir) (i : Nat) : Bool := bitAt (x.w (34 + i)) 6
def Dir.lhdr (x : Dir) (i : Nat) : Nat := fld (x.w (34 + i)) 8 40

/-- Is a vocabulary field in range: a local index, or 31 for none? -/
def vocField (n : Nat) : Bool := decide (n ≤ 15) || decide (n = 31)

/-- Does directory word n keep to the table of R255? -/
def Dir.wordOk (x : Dir) (n : Nat) : Bool :=
  let w := x.w n
  let addr := decide (fld w 40 24 = 0)
  match n with
  | 0 => decide (fld w 0 8 = 2) && decide (fld w 45 19 = 0)
  | 1 => addr
  | 2 => decide (fld w 62 2 = 0)
  | 3 => addr
  | 4 => vocField x.vocab && vocField x.pvocab && decide (fld w 60 4 = 0) && (List.range 4).all fun k => vocField (x.tvocab k)
  | 5 => decide (fld w 60 4 = 0)
  | 6 => decide (x.nrepl ≤ 64) && decide (fld w 45 19 = 0)
  | 7 => addr
  | 8 => decide (1 ≤ x.ngraph) && decide (x.ngraph ≤ 1024) && decide (fld w 51 13 = 0)
  | 9 => decide (fld w 22 42 = 0) && (x.pgraph.all fun g => decide (g < x.ngraph)) && x.cgraph.all fun g => decide (g < x.ngraph)
  | _ =>
    if n < 34 then addr
    else if n < 50 then decide (fld w 0 2 ≠ 3) && decide (fld w 7 1 = 0) && decide (fld w 48 16 = 0)
    else decide (w = 0)

def State.dirFail (s : State) (x : Dir) : Option Fail :=
  orFail (s.owned x.dom x.img 512) (1, 0, x.img) <|>
  eachItem 64 fun n =>
    (s.badWord (x.img + 8 * n) 8).map (fun w => (1, n, w)) <|> orFail (x.wordOk n) (1, n, x.img)

/-! ### Part 2: the token tier (R24-R27) -/

def State.imgHdr (s : State) (x : Dir) (i : Nat) : Word := s.rd64 (x.hdrs + 8 * i)
def State.imgPool (s : State) (x : Dir) (i : Nat) : Word := s.rd64 (x.pool + 8 * i)

/-- Words of a state's transition block, and the pool index of its extension word. -/
def blockLen (h : Word) : Nat := if hdrK h = 31 then 0 else 2 ^ hdrK h
def extIdx (h : Word) : Option Nat := if bitAt h 62 then some (hdrTbase h + blockLen h) else none

/-- The states that a state names: its default and the NEXT of its transition words. -/
def State.succs (s : State) (x : Dir) (i : Nat) : List Nat :=
  let h := s.imgHdr x i
  hdrDefault h :: ((List.range (blockLen h)).filterMap fun k =>
    let w := s.imgPool x (hdrTbase h + k)
    if bitAt w 18 then some (fld w 19 20) else none)

/-- The states reachable from a list, in the order in which they are met. -/
def State.reachStates (s : State) (x : Dir) : Nat → List Nat → List Nat → List Nat
  | 0, _, seen => seen
  | _ + 1, [], seen => seen
  | n + 1, i :: todo, seen =>
    if seen.contains i then s.reachStates x n todo seen
    else s.reachStates x n (s.succs x i ++ todo) (i :: seen)

/-- The encodings of one state (R27). DESIGN CHOICE (log entry 83): a DENY of STOP_TOK fails the image in a state that no slot reaches, too, and
with K = 31 and no extension word TBASE, which then names nothing, is not held to the pool. -/
def State.stateFail (s : State) (x : Dir) (i : Nat) : Option Fail :=
  let h := s.imgHdr x i
  let k := hdrK h
  let need := hdrTbase h + blockLen h + nb (bitAt h 62)
  orFail ((actOf (fld h 52 3)).isSome && (decide (k ≤ 18) || decide (k = 31)) && decide (hdrDefault h < x.nhdr) &&
    (decide (k = 31 ∧ bitAt h 62 = false) || decide (need ≤ x.npool))) (2, 0, x.hdrs + 8 * i) <|>
  eachItem (blockLen h) (fun j =>
    let n := hdrTbase h + j
    let w := s.imgPool x n
    orFail (!bitAt w 18 || decide (fld w 19 20 < x.nhdr)) (2, 0, x.pool + 8 * n)) <|>
  match extIdx h with
  | none => none
  | some n =>
    let w := s.imgPool x n
    orFail ((decide (fld w 0 16 = 0xFFFF) || decide (fld w 0 16 < x.nmask)) &&
      (extItems w).all fun it => !(decide (it.1 = 1) && decide (it.2 = x.stopTok))) (2, 0, x.pool + 8 * n)

/-- The rules of slot k for a reachable state (R27). -/
def State.slotFail (s : State) (x : Dir) (k i : Nat) : Option Fail :=
  let h := s.imgHdr x i
  let kind := x.kind k
  let act := fld h 52 3
  let actOk := if kind = 1 then decide (act = 0) || decide (act = 2) else if kind = 2 then decide (act = 0) else true
  let item := fun (it : Nat × Nat) =>
    if kind = 0 ∨ kind = 3 then decide (it.1 ≠ 3)
    else if kind = 1 then decide (it.1 ≠ 2)
    else decide (it.1 = 0) || (decide (it.1 = 3) && decide (it.2 = x.stopTok))
  orFail actOk (2, 0, x.hdrs + 8 * i) <|>
  match extIdx h with
  | none => none
  | some n =>
    let w := s.imgPool x n
    orFail ((extItems w).all item && (decide (fld w 0 16 = 0xFFFF) || (decide (k = 0) && decide (kind = 0)))) (2, 0, x.pool + 8 * n)

def startOf (f : Four) (k : Nat) : Nat := if k = 0 then f.a0 else if k = 1 then f.a1 else if k = 2 then f.a2 else f.a3

/-- More than the transitions of every state of the image. -/
def Dir.fuel (x : Dir) : Nat := x.nhdr * (2 ^ 18 + 2) + 2

def State.tokFail (s : State) (x : Dir) : Option Fail :=
  orFail (decide (x.vocab ≠ 31) && decide (x.lkind x.vocab ≠ 0)) (2, 0, x.img) <|>
  s.wordsFail x.dom x.hdrs x.nhdr <|>
  s.wordsFail x.dom x.pool x.npool <|>
  s.wordsFail x.dom x.masks (4096 * x.nmask) <|>
  eachItem x.nhdr (s.stateFail x) <|>
  (List.range 4).findSome? (fun k =>
    if !bitAt x.slotEn k then none
    else
      let st := startOf x.start k
      orFail (decide (st < x.nhdr)) (2, 0, x.img) <|>
      let r := s.reachStates x x.fuel [st] []
      eachItem x.nhdr fun i => if r.contains i then s.slotFail x k i else none) <|>
  eachItem x.nmask fun m =>
    let a := x.masks + 32768 * m + x.stopTok / 8
    orFail (bitAt (memGet s.mem.bytes a) (x.stopTok % 8)) (2, 0, a / 8 * 8)

/-! ### Local vocabularies -/

/-- Header address of local vocabulary i: carried in the image, or the base of its resident slot. -/
def State.vocAddr (s : State) (x : Dir) (i : Nat) : Nat := if x.lkind i = 2 then (s.vslot (x.lslot i)).base else x.lhdr i
/-- N_TOK of local vocabulary i. -/
def State.vocTok (s : State) (x : Dir) (i : Nat) : Nat := fld (s.rd64 (s.vocAddr x i)) 0 19

/-! ### Part 3: Ramp parameters (R51) -/

def State.replTok (s : State) (x : Dir) (k : Nat) : Nat := fld (s.rd32 (x.repl + 4 * k)) 0 18

def State.rampFail (s : State) (x : Dir) : Option Fail :=
  let n := s.vocTok x x.vocab
  orFail (decide (x.redact < n) && decide (x.redact ≠ x.stopTok)) (3, 0, x.img) <|>
  eachItem x.nrepl fun k =>
    let a := x.repl + 4 * k
    s.rangeFail x.dom 3 k a a 4 <|> orFail (decide (s.replTok x k < n) && decide (s.replTok x k ≠ x.stopTok)) (3, k, a)

/-! ### Part 4: vocabularies (R70, R88) -/

structure Voc where
  base   : Nat
  ntok   : Nat
  nnode  : Nat
  byteV  : Bool
  unkV   : Bool
  byteB  : Nat
  unk    : Nat
  idx    : Nat
  pool   : Nat
  nodes  : Nat
deriving DecidableEq, Repr

def State.voc (s : State) (a : Nat) : Voc :=
  let w := s.rd64 a
  let x := s.rd64 (a + 8)
  ⟨a, fld w 0 19, fld w 19 24, bitAt w 43, bitAt w 44, fld x 0 18, fld x 18 18, fld (s.rd64 (a + 16)) 0 40,
    fld (s.rd64 (a + 24)) 0 40, fld (s.rd64 (a + 32)) 0 40⟩

/-- A token's index entry: its string, or none for a special token. -/
def State.vocString (s : State) (v : Voc) (x : Nat) : Option (List Byte) :=
  let w := s.rd64 (v.idx + 8 * x)
  if bitAt w 40 then none else some (s.rd (v.pool + fld w 0 32) (fld w 32 8))

/-- The string that a special token's entry names; a special token without text has none. -/
def State.specialString (s : State) (v : Voc) (x : Nat) : Option (List Byte) :=
  let w := s.rd64 (v.idx + 8 * x)
  if bitAt w 40 && decide (fld w 32 8 ≠ 0) then some (s.rd (v.pool + fld w 0 32) (fld w 32 8)) else none

/-- What the walk finds at a node: number, bytes on its path, TOKEN if TV. -/
structure Walked where
  node : Nat
  path : List Byte
  tok  : Option Nat
  leaf : Bool
deriving DecidableEq, Repr

/-- Walk the trie from a list of (node, path before its label); `none` if a child index is outside the array or the walk does not
end within the array's size. -/
def State.walkTrie (s : State) (v : Voc) : Nat → List (Nat × List Byte) → List Walked → Option (List Walked)
  | _, [], acc => some acc
  | 0, _ :: _, _ => none
  | k + 1, (n, p) :: r, acc =>
    if n ≥ v.nnode then none
    else
      let x := s.trieNode v.nodes n
      let path := p ++ x.label
      let kids := ((List.range 256).filter fun b => bitmapAt x.next b).mapIdx fun j b => (x.cbase + j, path ++ [BitVec.ofNat 8 b])
      s.walkTrie v k (kids ++ r) (⟨n, path, if x.tv then some x.tok else none, kids.isEmpty⟩ :: acc)

/-- The encodings of a node's line (R69, R70). -/
def State.nodeOk (s : State) (v : Voc) (n : Nat) : Bool :=
  let a := v.nodes + 64 * n
  let l := (memGet s.mem.bytes (a + 32)).toNat
  decide (l ≤ 15) && ((s.rd (a + 33 + l) (15 - l)).all fun b => decide (b = 0)) && decide (fld (s.rd64 (a + 48)) 43 21 = 0) &&
    decide (s.rd64 (a + 56) = 0) && (n ≠ 0 || (decide (l = 0) && !bitAt (s.rd64 (a + 48)) 18))

/-- The lowest-numbered non-special token with a string. -/
def State.tokenOf (s : State) (v : Voc) (p : List Byte) : Option Nat :=
  (List.range v.ntok).find? fun x => decide (s.vocString v x = some p)

/-- The shape and content of the trie, and no special token's string in it (R70). -/
def State.trieOk (s : State) (v : Voc) : Bool :=
  match s.walkTrie v v.nnode [(0, [])] [] with
  | none => false
  | some ws =>
    decide (ws.length = v.nnode) && decide ((ws.map fun w => w.node).Nodup) &&
      (ws.all fun w => decide (w.path.length ≤ 128) && (decide (w.path.length < 128) || w.leaf) &&
        decide (w.tok = if w.path.isEmpty then none else s.tokenOf v w.path)) &&
      (List.range v.ntok).all fun x => match s.specialString v x with
        | none => true
        | some p => !ws.any fun w => w.tok.isSome && decide (w.path = p)

/-- One index entry: reserved bits, length, and the string's bytes in the domain's regions. -/
def State.entryFail (s : State) (d i : Nat) (v : Voc) (x : Nat) : Option Fail :=
  let w := s.rd64 (v.idx + 8 * x)
  let n := fld w 32 8
  orFail (decide (fld w 41 23 = 0) && (bitAt w 40 || (decide (1 ≤ n) && decide (n ≤ 128)))) (4, i, v.base) <|>
  if bitAt w 40 then none else s.rangeFail d 4 i v.base (v.pool + fld w 0 32) n

/-- A carried vocabulary (R70). -/
def State.carriedFail (s : State) (d i a : Nat) : Option Fail :=
  let v := s.voc a
  let w := s.rd64 a
  let bad : Fail := (4, i, a)
  orFail (decide (a % 64 = 0)) bad <|>
  s.rangeFail d 4 i a a 64 <|>
  orFail (decide (1 ≤ v.ntok) && decide (v.ntok ≤ 262144) && decide (1 ≤ v.nnode) && decide (v.nodes % 64 = 0) &&
    decide (fld w 45 19 = 0) && decide (fld (s.rd64 (a + 8)) 36 28 = 0) && decide (fld (s.rd64 (a + 16)) 40 24 = 0) &&
    decide (fld (s.rd64 (a + 24)) 40 24 = 0) && decide (fld (s.rd64 (a + 32)) 40 24 = 0) &&
    ((s.rd (a + 40) 24).all fun b => decide (b = 0))) bad <|>
  s.rangeFail d 4 i a v.idx (8 * v.ntok) <|>
  s.rangeFail d 4 i a v.nodes (64 * v.nnode) <|>
  eachItem v.ntok (s.entryFail d i v) <|>
  orFail ((List.range v.nnode).all fun n => s.nodeOk v n) bad <|>
  orFail (s.trieOk v) bad <|>
  orFail (!v.byteV || (List.range 256).all fun b =>
    decide (v.byteB + b < v.ntok) && decide (s.vocString v (v.byteB + b) = some [BitVec.ofNat 8 b])) bad <|>
  orFail (!v.unkV || decide (v.unk < v.ntok)) bad

/-- May an image of domain d name a resident slot (R66, R88)? -/
def VSlot.usable (v : VSlot) (d : Nat) : Bool := v.valid && (decide (v.owner = d) || (v.shared && decide (v.owner = 0)))

def State.vocFail (s : State) (x : Dir) : Option Fail :=
  eachItem 16 fun i =>
    if x.lkind i = 1 then s.carriedFail x.dom i (x.lhdr i)
    else if x.lkind i = 2 then orFail ((s.vslot (x.lslot i)).usable x.dom) (4, i, (s.vslot (x.lslot i)).base)
    else none

/-! ### Part 5: the text tier (R78, R87, R88) -/

def State.psetFail (s : State) (d k a : Nat) : Option Fail :=
  let w := s.rd64 a
  let ns := fld w 0 24
  let nc := fld w 24 9
  let tr := fld (s.rd64 (a + 8)) 0 40
  let ac := fld (s.rd64 (a + 16)) 0 40
  let bad : Fail := (5, k, a)
  orFail (decide (a % 64 = 0)) bad <|>
  s.rangeFail d 5 k a a 320 <|>
  orFail (decide (1 ≤ nc) && decide (nc ≤ 256) && decide (fld w 33 24 < ns) && decide (tr % 64 = 0) && decide (ac % 8 = 0) &&
    (s.rd (a + 64) 256).all fun c => decide (c.toNat < nc)) bad <|>
  s.rangeFail d 5 k a tr (4 * ns * nc) <|>
  s.rangeFail d 5 k a ac (8 * ns) <|>
  orFail ((List.range (ns * nc)).all fun j => decide (fld (s.rd32 (tr + 4 * j)) 0 24 < ns)) bad

def State.textFail (s : State) (x : Dir) : Option Fail :=
  let named := fun (i : Nat) => decide (i = 31) || decide (x.lkind i ≠ 0)
  orFail (named x.pvocab && (List.range 4).all fun k => named (x.tvocab k)) (5, 0, x.img) <|>
  orFail ((List.range 4).all fun k => decide (x.tvocab k = 31) ||
    (let v := s.voc (s.vocAddr x (x.tvocab k)); v.byteV || v.unkV)) (5, 0, x.img) <|>
  orFail (!(s.domOf x.dom).formT || decide (x.pvocab ≠ 31)) (5, 0, x.img) <|>
  eachItem 8 fun k => if x.pset k = 0 then none else s.psetFail x.dom k (x.pset k)

/-! ### Part 6: models (R90-R92) -/

/-- Parameters of a model: weights, biases and norm values. -/
def State.modelParams (s : State) (m : ModelHdr) (ntok : Nat) : Nat :=
  (m.matrices ntok).foldl (fun a x => a + x.2.1 * x.2.2.1 + if s.tensorWord m x.1 3 = 0 then 0 else x.2.1) 0 +
    m.norms.length * m.hidden * (if m.rms then 1 else 2)

/-- The ranges of R90. -/
def State.modelRanges (s : State) (a : Nat) : Bool :=
  let m := s.modelHdr a
  let w := s.rd64 a
  decide (1 ≤ m.layers) && decide (m.layers ≤ 48) && decide (128 ≤ m.hidden) && decide (m.hidden ≤ 8192) &&
    decide (m.hidden % 128 = 0) && decide (1 ≤ m.heads) && decide (m.heads ≤ 64) && decide (1 ≤ m.kvheads) &&
    decide (m.kvheads ≤ 64) && decide (m.heads % m.kvheads = 0) && decide (fld w 34 2 ≤ 1) && decide (128 ≤ m.ffn) &&
    decide (m.ffn ≤ 32768) && decide (m.ffn % 128 = 0) && decide (m.act ≤ 2) && decide (fld w 56 2 ≤ 2) && decide (1 ≤ m.win) &&
    decide (m.win ≤ 4096) && decide (1 ≤ m.classes) && decide (m.classes ≤ 64) && decide (m.ttab % 64 = 0) &&
    isFinite m.eps && decide (fld m.eps 0 31 ≠ 0) && !bitAt m.eps 31

/-- The pinned lines that models before number k of the image need. -/
def State.modelLines (s : State) (x : Dir) (k : Nat) : List Nat :=
  ((List.range k).filter fun j => decide (x.model j ≠ 0) && (s.modelHdr (x.model j)).pin).flatMap (fun j =>
    let m := s.modelHdr (x.model j)
    linesBy 4096 (s.modelArrays m (s.vocTok x (x.tvocab m.tv)))) |>.eraseDups

def State.modelFail (s : State) (x : Dir) (k : Nat) : Option Fail :=
  let a := x.model k
  if a = 0 then none
  else
    let m := s.modelHdr a
    let bad : Fail := (6, k, a)
    orFail (decide (a % 64 = 0)) bad <|>
    s.rangeFail x.dom 6 k a a 64 <|>
    orFail (s.modelRanges a && decide (x.tvocab m.tv ≠ 31)) bad <|>
    s.rangeFail x.dom 6 k a m.ttab (32 * m.ntensor) <|>
    let nt := s.vocTok x (x.tvocab m.tv)
    orFail ((m.matrices nt).all fun y => decide (y.2.2.1 % m.group = 0)) bad <|>
    orFail (decide (s.modelParams m nt ≤ 2000000000)) bad <|>
    (s.modelArrays m nt).findSome? (fun y => s.rangeFail x.dom 6 k a y.1 y.2) <|>
    orFail (!m.pin || decide (pinned s.cls.cache + (s.modelLines x (k + 1)).length ≤ s.cls.pinmax)) bad

/-! ### Part 7: feature plans (R113, R114, R118, R121) -/

def State.featOk (s : State) (p : Plan) (i : Nat) : Bool :=
  let f := s.feat p i
  let a := p.feats + 32 * i
  let w := s.rd64 a
  let num := decide (f.kind = 0) || decide (f.kind = 1)
  let hash := decide (f.kind = 3) || decide (f.kind = 4)
  let cross := decide (f.kind = 4)
  let cuts := s.floats (p.cuts + 4 * f.cutidx) f.ncut
  decide (f.kind ≤ 4) && !bitAt w 63 && decide (s.rd64 (a + 24) = 0) && decide (fld (s.rd64 (a + 16)) 20 44 = 0) &&
    (if cross then decide (f.src0 < i) && decide (f.src1 < i) && (decide (f.nsrc = 2) || (decide (f.nsrc = 3) && decide (f.src2 < i))) &&
        (decide (f.nsrc = 3) || decide (f.src2 = 0))
      else decide (f.src1 = 0) && decide (f.src2 = 0) && decide (f.nsrc = 0) &&
        decide (f.src0 < if f.kind = 1 then p.nacc else p.nraw)) &&
    (if hash then decide (1 ≤ f.card) else decide (f.card = 0) && decide (f.seed = 0)) &&
    (if num then decide (f.ncut ≤ 254) && decide (f.cutidx + f.ncut ≤ p.ncutw) &&
        (cuts.all fun c => isFinite c && decide (c ≠ 0x80000000#32)) &&
        decide ((cuts.map ordKey).Pairwise (fun a b => a < b))
      else decide (f.ncut = 0) && decide (s.rd64 (a + 8) = 0) && decide (s.rd64 (a + 16) = 0))

def State.planFail (s : State) (x : Dir) (k : Nat) : Option Fail :=
  let a := x.plan k
  if a = 0 then none
  else
    let p := s.plan a
    let bad : Fail := (7, k, a)
    orFail (decide (a % 64 = 0)) bad <|>
    s.rangeFail x.dom 7 k a a 64 <|>
    orFail (decide (1 ≤ p.nfeat) && decide (p.nfeat ≤ 4096) && decide (p.nacc ≤ 64) && decide (1 ≤ p.nraw) && decide (p.nraw ≤ 4096) &&
      decide (p.ncutw ≤ 1040384) && decide (p.feats % 32 = 0) && (decide (p.nacc = 0) || decide (p.accs % 8 = 0)) &&
      decide (p.cuts % 4 = 0) && decide (fld (s.rd64 a) 33 31 = 0) && decide (fld (s.rd64 (a + 8)) 40 24 = 0) &&
      decide (fld (s.rd64 (a + 16)) 40 24 = 0) && decide (fld (s.rd64 (a + 24)) 40 24 = 0) &&
      decide (fld (s.rd64 (a + 32)) 21 43 = 0) && ((s.rd (a + 40) 24).all fun b => decide (b = 0))) bad <|>
    s.rangeFail x.dom 7 k a p.feats (32 * p.nfeat) <|>
    (if p.nacc = 0 then none else s.rangeFail x.dom 7 k a p.accs (8 * p.nacc)) <|>
    s.rangeFail x.dom 7 k a p.cuts (4 * p.ncutw) <|>
    orFail ((List.range p.nacc).all fun j => decide ((s.accDesc p j).2 < p.nraw) && decide (fld (s.rd64 (p.accs + 8 * j)) 14 50 = 0)) bad <|>
    orFail ((List.range p.nfeat).all fun i => s.featOk p i) bad

/-! ### Part 8: ensembles (R123-R126, R131) -/

/-- One tree: word 0, its nodes and its leaves. -/
def State.treeOk (s : State) (e : Ens) (nfeat t : Nat) : Bool :=
  let w := fun i => s.treeWord e t i
  decide (w 0 = 0) &&
    ((List.range (2 ^ e.depth - 1)).all fun i =>
      let n := w (i + 1)
      decide (fld n 0 12 < nfeat) && decide (fld n 30 2 = 0) &&
        (if bitAt n 12 then decide (fld n 14 16 < e.nbmp) else decide (fld n 22 8 = 0))) &&
    (List.range (2 ^ e.depth)).all fun i =>
      let l := w (2 ^ e.depth + i)
      decide (fld l 16 8 < e.nclass) && decide (fld l 10 5 ≠ 31)

def State.ensLines (s : State) (x : Dir) (k : Nat) : List Nat :=
  ((List.range k).filter fun j => decide (x.ens j ≠ 0) && (s.ens (x.ens j)).pin).flatMap (fun j =>
    linesBy 4096 (s.ens (x.ens j)).arrays) |>.eraseDups

def State.ensFail (s : State) (x : Dir) (k : Nat) : Option Fail :=
  let a := x.ens k
  if a = 0 then none
  else
    let e := s.ens a
    let bad : Fail := (8, k, a)
    orFail (decide (a % 64 = 0)) bad <|>
    s.rangeFail x.dom 8 k a a 64 <|>
    orFail (decide (1 ≤ e.ntree) && decide (e.ntree ≤ 65536) && decide (1 ≤ e.depth) && decide (e.depth ≤ 12) && decide (1 ≤ e.nclass) &&
      decide (e.nclass ≤ 16) && decide (e.link ≤ 2) && decide (e.nbmp ≤ 65536) && decide (e.trees % 64 = 0) && decide (e.bmps % 32 = 0) &&
      decide (x.plan e.plan ≠ 0) && decide (fld (s.rd64 a) 48 16 = 0) && decide (fld (s.rd64 (a + 8)) 32 32 = 0) &&
      decide (fld (s.rd64 (a + 16)) 40 24 = 0) && decide (fld (s.rd64 (a + 24)) 40 24 = 0) &&
      ((s.rd (a + 32) 32).all fun b => decide (b = 0))) bad <|>
    e.arrays.findSome? (fun y => s.rangeFail x.dom 8 k a y.1 y.2) <|>
    orFail ((List.range e.ntree).all fun t => s.treeOk e (s.plan (x.plan e.plan)).nfeat t) bad <|>
    orFail ((List.range e.nbmp).all fun m => !bitAt (memGet s.mem.bytes (e.bmps + 32 * m + 31)) 7) bad <|>
    orFail (!e.pin || decide (pinned s.tre.store + (s.ensLines x (k + 1)).length ≤ s.tre.pinmax)) bad

/-! ### Part 9: graphs (R156-R158) -/

/-- Header address, number of tasks, role and task array of a graph. -/
def State.imgGraph (s : State) (x : Dir) (g : Nat) : Nat × Word × Nat :=
  let a := fld (s.rd64 (x.gdir + 8 * g)) 0 40
  (a, s.rd64 a, fld (s.rd64 (a + 8)) 0 40)

def graphRole (w : Word) : Nat := fld w 13 2

/-- The subgraphs that a graph starts. -/
def State.subsOf (s : State) (x : Dir) (g : Nat) : List Nat :=
  let y := s.imgGraph x g
  (List.range (fld y.2.1 0 7)).filterMap fun i =>
    let w := s.rd64 (y.2.2 + 32 * i)
    if bitAt w 3 ∧ fld w 8 10 < x.ngraph then some (fld w 8 10) else none

def State.taskOk (s : State) (x : Dir) (vtask a i : Nat) : Bool :=
  let w := s.rd64 a
  let prog := s.rd64 (a + 8)
  let sub := bitAt w 3
  decide (fld w 4 4 = 0) && decide (fld w 18 46 = 0) && decide (fld (s.rd64 (a + 24)) 32 32 = 0) &&
    decide ((s.rd64 (a + 16)).toNat < 2 ^ i) &&
    (if sub then decide (prog = 0) && decide (fld w 1 2 = 0) && decide (i ≠ vtask) && decide (fld w 8 10 < x.ngraph) &&
        decide (graphRole (s.imgGraph x (fld w 8 10)).2.1 = 2)
      else decide (fld prog 40 24 = 0))

def State.graphFail (s : State) (x : Dir) (g : Nat) : Option Fail :=
  let y := s.imgGraph x g
  let a := y.1
  let w := y.2.1
  let bad : Fail := (9, g, a)
  let n := fld w 0 7
  s.rangeFail x.dom 9 g a (x.gdir + 8 * g) 8 <|>
  orFail (decide (fld (s.rd64 (x.gdir + 8 * g)) 40 24 = 0) && decide (a % 64 = 0)) bad <|>
  s.rangeFail x.dom 9 g a a 64 <|>
  orFail (decide (1 ≤ n) && decide (n ≤ 64) && decide (fld w 7 6 < n) && decide (graphRole w ≠ 3) && decide (y.2.2 % 32 = 0) &&
    decide (fld w 15 49 = 0) && decide (fld (s.rd64 (a + 8)) 40 24 = 0) && ((s.rd (a + 16) 48).all fun b => decide (b = 0))) bad <|>
  s.rangeFail x.dom 9 g a y.2.2 (32 * n) <|>
  orFail ((List.range n).all fun i => s.taskOk x (fld w 7 6) (y.2.2 + 32 * i) i) bad

/-- The graphs that lie k links below the graphs of a list. -/
def State.below (s : State) (x : Dir) : Nat → List Nat → List Nat
  | 0, l => l
  | k + 1, l => s.below x k (l.flatMap fun g => s.subsOf x g).eraseDups

/-- Is a graph reachable from itself? -/
def State.onCycle (s : State) (x : Dir) (g : Nat) : Bool :=
  (List.range x.ngraph).any fun k => (s.below x (k + 1) [g]).contains g

/-- The checks of the graphs, one graph after the other (R255): its own, its role as PGRAPH or CGRAPH, a cycle through it, its depth. -/
def State.graphsFail (s : State) (x : Dir) : Option Fail :=
  let role := fun g => graphRole (s.imgGraph x g).2.1
  let deep := s.below x 4 ((List.range x.ngraph).filter fun g => decide (role g = 2))
  eachItem x.ngraph fun g =>
    s.graphFail x g <|>
    orFail (decide (x.pgraph = some g → role g = 0) && decide (x.cgraph = some g → role g = 1) && !s.onCycle x g && !deep.contains g)
      (9, g, (s.imgGraph x g).1)

/-! ### Part 10: programs (R202) -/

def State.progFail (s : State) (x : Dir) (g i : Nat) : Option Fail :=
  let y := s.imgGraph x g
  let a := y.2.2 + 32 * i
  if bitAt (s.rd64 a) 3 then none
  else
    let p := fld (s.rd64 (a + 8)) 0 40
    let idx := g * 64 + i
    let bad : Fail := (10, idx, p)
    let w := s.rd64 p
    let n := fld w 0 18
    orFail (decide (p % 64 = 0)) bad <|>
    s.rangeFail x.dom 10 idx p p 64 <|>
    orFail (decide (1 ≤ n) && decide (n ≤ 131072) && decide (fld w 18 18 < n) && decide (fld w 36 28 = 0) &&
      decide (fld (s.rd64 (p + 8)) 32 32 = 0) && ((s.rd (p + 16) 48).all fun b => decide (b = 0))) bad <|>
    s.rangeFail x.dom 10 idx p (p + 64) (4 * n) <|>
    orFail (decide ((crc32c (s.rd (p + 64) (4 * n))).toNat = fld (s.rd64 (p + 8)) 0 32)) bad

def State.progsFail (s : State) (x : Dir) : Option Fail :=
  eachItem x.ngraph fun g => eachItem (fld (s.imgGraph x g).2.1 0 7) fun i => s.progFail x g i

/-- The first failing check of an image, in the order of the PART codes (R255). -/
def State.imageFail (s : State) (x : Dir) : Option Fail :=
  s.dirFail x <|> s.tokFail x <|> s.rampFail x <|> s.vocFail x <|> s.textFail x <|> eachItem 4 (s.modelFail x) <|>
    eachItem 4 (s.planFail x) <|> eachItem 8 (s.ensFail x) <|> s.graphsFail x <|> s.progsFail x

end Sys2Proof.Machine
end

