-- ==== Sys2Proof/Machine/Loader.lean ====
section
/-! DEFINITION. Loader.lean: placing an epoch image (11 R255; 02 R33; 04 R66; 14 R313, R316): IMG_LOAD, IMG_LOAD_DONE. The checks,
the relocation and the writes are made at the command's stamp (log entry 20); the epoch becomes live at IMG_LOAD_DONE. -/

namespace Sys2Proof.Machine

/-! ### First fit (R255) -/

/-- The lowest start of n free places below `cap`, given the ranges in use as (base, length). -/
def firstFit (used : List (Nat × Nat)) (n cap : Nat) : Option Nat :=
  let starts := 0 :: used.map fun u => u.1 + u.2
  let ok := fun a => decide (a + n ≤ cap) && used.all fun u => decide (a + n ≤ u.1) || decide (u.1 + u.2 ≤ a) || decide (u.2 = 0)
  (starts.filter ok).foldl (fun (m : Option Nat) a => match m with
    | some b => some (min a b)
    | none => some a) none

/-- The n lowest mask identifiers that no epoch owns. -/
def State.freeMasks (s : State) (n : Nat) : List Nat :=
  let used := s.epochs.flatMap fun x => x.2.2.masks
  ((List.range (min 65535 (used.length + n))).filter fun i => !used.contains i).take n

/-- The lowest-numbered free vocabulary slots. -/
def State.freeVocs (s : State) : List Nat := (List.range 16).filter fun n => !(s.vslot n).valid

/-- Where an image goes. -/
structure Place where
  hdr   : Nat
  pool  : Nat
  masks : List Nat
  vocs  : List Nat          -- global slots of local vocabularies 0-15; 0 for none
deriving DecidableEq, Repr

/-- The slots of the local vocabularies, or the first that finds none free. -/
def State.placeVocs (s : State) (x : Dir) : Nat → List Nat → List Nat → Except Nat (List Nat)
  | 0, _, acc => .ok acc.reverse
  | k + 1, free, acc =>
    let i := 15 - k
    if x.lkind i = 1 then
      match free with
      | [] => .error i
      | n :: r => s.placeVocs x k r (n :: acc)
    else if x.lkind i = 2 then s.placeVocs x k free (x.lslot i :: acc)
    else s.placeVocs x k free (0 :: acc)

/-- Allocate state numbers, pool words, mask identifiers and vocabulary slots, or the FULL of R255. -/
def State.placement (s : State) (x : Dir) : Except Fail Place :=
  let es := s.epochs.map fun p => p.2.2
  let ms := s.freeMasks x.nmask
  match firstFit (es.map fun e => (e.hdrBase, e.nhdr)) x.nhdr (2 ^ 20),
      firstFit (es.map fun e => (e.poolBase, e.npool)) x.npool (2 ^ 21) with
  | some h, some p =>
    if ms.length < x.nmask then .error (2, 0, x.img)
    else match s.placeVocs x 16 s.freeVocs [] with
      | .error i => .error (4, i, x.lhdr i)
      | .ok vs => .ok ⟨h, p, ms, vs⟩
  | _, _ => .error (2, 0, x.img)

/-! ### Relocation (R255) -/

/-- A header word with its image-local numbers relocated. -/
def relocHdr (pl : Place) (w : Word) : Word :=
  w + pack 64 [(0, pl.hdr), (20, if hdrK w = 31 ∧ bitAt w 62 = false then 0 else pl.pool)]

/-- A pool word: an extension word names its mask by its identifier, a transition word its next state by its number. -/
def relocPool (pl : Place) (isExt : Bool) (w : Word) : Word :=
  if isExt then
    if fld w 0 16 = 0xFFFF then w
    else BitVec.ofNat 64 (w.toNat - fld w 0 16 + (pl.masks[fld w 0 16]?).getD 0xFFFF)
  else if bitAt w 18 then w + pack 64 [(19, pl.hdr)]
  else w

/-- The relocated words with their numbers. -/
def State.relocated (s : State) (x : Dir) (pl : Place) : Tab Word × Tab Word :=
  let hs := (List.range x.nhdr).map fun i => s.imgHdr x i
  let exts := hs.filterMap extIdx
  (hs.mapIdx fun i w => (pl.hdr + i, relocHdr pl w),
    (List.range x.npool).map fun i => (pl.pool + i, relocPool pl (exts.contains i) (s.imgPool x i)))

/-- A mask of the image with the bits at or beyond N_TOK cleared (R33). -/
def State.imgMask (s : State) (x : Dir) (m : Nat) : BitVec 262144 :=
  let n := s.vocTok x x.vocab
  BitVec.ofNat 262144 (leNat (s.rd (x.masks + 32768 * m) 32768) % 2 ^ n)

/-- The tokens that a mask permits. -/
def maskTokens (w : BitVec 262144) (n : Nat) : List Nat := (List.range n).filter fun t => bitAt w t

/-- The directory entry of an identifier that is assigned to a domain (R33, R313). -/
def State.maskEntry (s : State) (x : Dir) (id m : Nat) : MaskDir :=
  let w := s.imgMask x m
  let ts := (maskTokens w (s.vocTok x x.vocab)).filter fun t => t ≠ x.stopTok
  ⟨true, x.dom, genSucc (s.mask id).gen, ts.length, if ts.length ≤ 8 then ts else [], if id < 1024 then w else 0⟩

/-! ### Writes during placement (R33, R316) -/

def maskBytes (w : BitVec 262144) : List Byte := leBytes 32768 w.toNat

/-- Address and bytes of every write of a placement: spilled masks, then the shadow's header words, pool words and masks. -/
def State.placeWrites (s : State) (x : Dir) (pl : Place) (ws : Tab Word × Tab Word) : List (Nat × List Byte) :=
  let word := fun (base : Nat) (p : Nat × Word) => (base + 8 * p.1, leBytes 8 p.2.toNat)
  let ms := pl.masks.mapIdx fun m id => (id, s.imgMask x m)
  (ms.filter fun p => 1024 ≤ p.1).map (fun p => (s.tok.mspill + (p.1 - 1024) * 32768, maskBytes p.2)) ++
    ws.1.map (word s.wch.shadow) ++ ws.2.map (word (s.wch.shadow + 0x800000)) ++
    (ms.filter fun p => p.1 < 1024).map fun p => (s.wch.shadow + 0x1800000 + p.1 * 32768, maskBytes p.2)

/-- Make the writes in order, up to the first that fails the check of R287 for domain 0 (R33, R316). DESIGN CHOICE: a spill place or the
shadow in a SHARED region of domain 0 passes, since R287 names no such failure and R33 and R316 no other effect (log entry 53). -/
def State.writeAll (s : State) : List (Nat × List Byte) → State × Option Nat
  | [] => (s, none)
  | w :: r => if s.ownedWr 0 w.1 w.2.length then (s.wr w.1 w.2).writeAll r else (s.viol, some w.1)

/-! ### The epoch (R255) -/

/-- The vocabulary field of an epoch: the global slot of a local index, or none. -/
def vocSlot (pl : Place) (n : Nat) : Option Nat := if n = 31 then none else pl.vocs[n]?

def addFour (f : Four) (n : Nat) : Four := ⟨f.a0 + n, f.a1 + n, f.a2 + n, f.a3 + n⟩

def State.makeEpoch (s : State) (x : Dir) (pl : Place) (num gen cmd : Nat) : Epoch where
  num := num
  live := false
  everAct := false
  image := x.img
  gen := gen
  slotEn := x.slotEn
  kinds := (List.range 4).map x.kind
  start := addFour x.start pl.hdr
  stopTok := x.stopTok
  vocab := (vocSlot pl x.vocab).getD 0
  pvocab := vocSlot pl x.pvocab
  tvocab := (List.range 4).map fun k => vocSlot pl (x.tvocab k)
  redactTok := x.redact
  repl := (List.range x.nrepl).map (s.replTok x)
  gdir := x.gdir
  ngraph := x.ngraph
  pgraph := x.pgraph
  cgraph := x.cgraph
  models := (List.range 4).map x.model
  plans := (List.range 4).map x.plan
  ens := (List.range 8).map x.ens
  psets := (List.range 8).map x.pset
  hdrBase := pl.hdr
  nhdr := x.nhdr
  poolBase := pl.pool
  npool := x.npool
  masks := pl.masks
  vslots := (List.range 16).filterMap fun i => if x.lkind i = 0 then none else pl.vocs[i]?
  locals := pl.vocs
  mwrap := pl.masks.any fun id => decide ((s.mask id).gen = 255)
  loadCmd := some cmd

/-- The carried vocabularies fill their slots (R66). -/
def State.fillVocs (s : State) (x : Dir) (pl : Place) : State :=
  (List.range 16).foldl (fun s i =>
    if x.lkind i = 1 then
      let n := (pl.vocs[i]?).getD 0
      { s with txt := { s.txt with vslots := updAt s.txt.vslots n fun v =>
        ⟨true, x.lshared i && decide (x.dom = 0), x.dom, genSucc v.gen, x.lhdr i, s.vocTok x i⟩ } }
    else s) s

/-- The lines of PIN models and ensembles (R109, R132). -/
def State.fillPins (s : State) (x : Dir) (gen : Nat) : State :=
  { s with
    cls := { s.cls with cache := touchLines 32768 x.dom gen true s.cls.cache (s.modelLines x 4) }
    tre := { s.tre with store := touchLines 8192 x.dom gen true s.tre.store (s.ensLines x 8) } }

/-- The image generation of a domain moves on past the values that its epochs carry; lines tagged with the new value become
invalid (R313). -/
def State.nextImage (s : State) (d : Nat) : State × Nat :=
  let x := s.domOf d
  let q := genNext ((x.ep0.toList ++ x.ep1.toList).map fun e => e.gen) x.imgGen
  let keep := fun (l : CLine) => !(decide (l.owner = d) && decide (l.gen = q.1))
  ((({ s with
      cls := { s.cls with cache := s.cls.cache.filter keep }
      tre := { s.tre with store := s.tre.store.filter keep, plan := s.tre.plan.filter keep } } : State).updDom d fun x =>
    { x with imgGen := q.1 }).count 14 0x1D q.2, q.1)

def failWord (f : Fail) : Word := pack 64 [(0, f.1), (8, f.2.1), (24, f.2.2)]

/-- A load that fails: its completion and its EPOCH record (14 R331). -/
def State.failLoad (s : State) (c : Cmd) (num st : Nat) (w : Word) : State :=
  (s.complete c.id st [w]).logEpoch 3 c.dom num w s.tally

/-- Place a checked image: the stores, the vocabularies, the pinned lines and the reserved epoch slot. -/
def State.install' (s : State) (c : Cmd) (x : Dir) (pl : Place) (num : Nat) (sel : Bool) (ws : Tab Word × Tab Word) : State :=
  let ep := fun gen => s.makeEpoch x pl num gen c.id
  let ms := pl.masks.mapIdx fun m id => (id, s.maskEntry x id m)
  let s := { s with tok := { s.tok with
    hdrs := ws.1.foldl (fun t (p : Nat × Word) => Tab.set t p.1 p.2) s.tok.hdrs
    pool := ws.2.foldl (fun t (p : Nat × Word) => Tab.set t p.1 p.2) s.tok.pool
    masks := ms.foldl (fun t (p : Nat × MaskDir) => Tab.set t p.1 p.2) s.tok.masks } }
  let q := s.nextImage c.dom
  ((q.1.fillVocs x pl).fillPins x q.2).updDom c.dom fun d => d.setEpoch sel (some (ep q.2))

/-- Steps 4 to 6 of R255. -/
def State.loadImage (s : State) (c : Cmd) (img num : Nat) (sel : Bool) : State :=
  let x := s.readDir c.dom img
  match s.imageFail x with
  | some f => s.failLoad c num stREJECTED (failWord f)
  | none =>
    match s.placement x with
    | .error f => s.failLoad c num stFULL (failWord f)
    | .ok pl =>
      let ws := s.relocated x pl
      let q := s.writeAll (s.placeWrites x pl ws)
      match q.2 with
      | some a => q.1.failLoad c num stREJECTED (failWord (2, 0, a))
      | none => q.1.install' c x pl num sel ws

/-- Does a domain's slot hold the number? -/
def epochHas (e : Option Epoch) (num : Nat) : Bool := match e with
  | some x => decide (x.num = num)
  | none => false

/-- Steps 1 to 3 of R255. -/
def State.loadEarly (s : State) (c : Cmd) : Option Nat :=
  let num := fld (c.word 3) 0 16
  let x := s.domOf c.dom
  if !x.isOpen then some stNOT_OPEN
  else if x.ep0.isSome && x.ep1.isSome then some stBUSY
  else if fld (c.word 2) 0 40 % 64 ≠ 0 ∨ epochHas x.ep0 num ∨ epochHas x.ep1 num then some stBAD_ARG
  else none

def State.imgLoad (s : State) (c : Cmd) : State :=
  let num := fld (c.word 3) 0 16
  match s.loadEarly c with
  | some st => s.failLoad c num st 0
  | none => s.loadImage c (fld (c.word 2) 0 40) num (s.domOf c.dom).ep0.isSome

/-- A load that comes to its image while no request is issued waits (13 R309; log entry 84). -/
def execImgLoad (t : Stamp) (s : State) : Out :=
  onCommandWhen t 0x22 false (fun s c => !s.mem.en && (s.loadEarly c).isNone) s fun s c => s.imgLoad c

/-- The load's reads, writes and fills are complete: the epoch becomes live (R255). -/
def State.finishLoad (s : State) (d : Nat) (sel : Bool) (e : Epoch) : State :=
  match e.loadCmd with
  | none => s
  | some id =>
    let w4 := pack 64 (e.locals.mapIdx fun i n => (4 * i, n))
    let s := s.updDom d fun y => y.setEpoch sel (some { e with live := true, loadCmd := none })
    s.complete id stOK [BitVec.ofNat 64 (nb sel), w4, BitVec.ofNat 64 (nb e.mwrap)]

/-- Where the check of an image fails if the 128-byte line at `a` does not read (R255 step 4). -/
def State.lineFail (s : State) (d img a : Nat) : Option Fail :=
  let u := { s with mem := { s.mem with pois := (List.range 16).map fun k => a / 128 * 128 + 8 * k } }
  u.imageFail (u.readDir d img)

/-- MS_ERR on a line of the image of a load under way: the load is rejected for the object that holds it, and the detector of memory port 3
trips for no request (R255, 14 R314). -/
def State.loadError (s : State) (d : Nat) (sel : Bool) (f : Fail) (t : Stamp) : State :=
  let s := s.unitErr.detect 0x0E 3 4 12 0 0 false true 0 t
  s.dropLoad d sel stREJECTED (failWord f) t

def execImgLoadDone (t : Stamp) (load : LoadEnd) (s : State) : Out :=
  let s := s.upTo t (kSub 1)
  let d := load.dom.toNat
  let x := s.domOf d
  let loading := fun (e : Option Epoch) => e.filter fun y => y.loadCmd.isSome
  let fin := fun (sel : Bool) (e : Epoch) => match load.err.bind fun a => s.lineFail d e.image a.toNat with
    | some f => s.loadError d sel f s.tally
    | none => s.finishLoad d sel e
  if !s.running || !s.mem.en then .next s
  else match loading x.ep0, loading x.ep1 with
    | some e, _ => .next (fin false e)
    | none, some e => .next (fin true e)
    | none, none => .next s

end Sys2Proof.Machine
end

