-- ==== Sys2Proof/Machine/Fences.lean ====
section
/-! DEFINITION. Fences.lean: units, their spares, fences and swaps (02 R40, R41; 04 R65, R86; 05 R89, R110, R111; 06 R112, R122,
R130, R134; 11 R258; 13 R303; 14 R317, R327, R339): UNIT_FENCE, SWAPPED, GOLDEN_RUN_DONE, TOK_SWAP, TXT_FENCE, CLS_SWAP,
CLS_GOLD, TRE_SWAP, FST_FENCE, TRE_GOLD, PIL_SWAP, FRY_SWAP. Units are named by the KIND of R258 and a physical number. -/

namespace Sys2Proof.Machine

/-! ### Units and spares -/

def spares (k : Nat) : List Nat :=
  if k = 1 then [32, 33] else if k = 5 then [16, 17] else if k = 0 ∨ k = 2 ∨ k = 6 then [8] else []

/-- Is a physical unit out of service for good? A pipeline whose lane the spare serves counts, though its lane runs (R40). -/
def State.unitFenced (s : State) (k u : Nat) : Bool :=
  if k = 0 then
    if u = 8 then s.tok.spareBad else bitAt s.tok.fenced u || (s.tok.spareUsed && decide (s.tok.spareFor = u))
  else if k = 1 then bitAt s.cls.fenced u
  else if k = 2 then bitAt s.tre.fenced u
  else if k = 3 then bitAt s.tre.fst u
  else if k = 4 then bitAt s.txt.fenced u
  else if k = 5 then bitAt s.pil.fenced u
  else bitAt s.fry.fenced u

/-- The number that a spare serves. -/
def State.serves (s : State) (k u : Nat) : Option Nat :=
  if k = 0 then (if s.tok.spareUsed then some s.tok.spareFor else none)
  else if k = 1 then (if u = 32 then s.cls.sp32 else s.cls.sp33)
  else if k = 2 then s.tre.spare
  else if k = 5 then (if u = 16 then s.pil.sp16 else s.pil.sp17)
  else if k = 6 then (if s.fry.spareUsed then some s.fry.spareFor else none)
  else none

/-- A spare that is in service and serves no number. -/
def State.freeSpare (s : State) (k : Nat) : Option Nat :=
  (spares k).find? fun u => !s.unitFenced k u && (s.serves k u).isNone

/-- The number that a physical unit serves; none for a fenced unit or an idle spare. -/
def State.numberOf (s : State) (k u : Nat) : Option Nat :=
  if s.unitFenced k u then none else if (spares k).contains u then s.serves k u else some u

def State.putFence (s : State) (k u : Nat) : State :=
  if k = 0 then
    if u = 8 then { s with tok := { s.tok with spareBad := true } }
    else { s with tok := { s.tok with fenced := s.tok.fenced ||| (1#8 <<< u) } }
  else if k = 1 then { s with cls := { s.cls with fenced := s.cls.fenced ||| (1#34 <<< u) } }
  else if k = 2 then { s with tre := { s.tre with fenced := s.tre.fenced ||| (1#9 <<< u) } }
  else if k = 3 then { s with tre := { s.tre with fst := s.tre.fst ||| (1#2 <<< u) } }
  else if k = 4 then { s with txt := { s.txt with fenced := s.txt.fenced ||| (1#22 <<< u) } }
  else if k = 5 then { s with pil := { s.pil with fenced := s.pil.fenced ||| (1#18 <<< u) } }
  else { s with fry := { s.fry with fenced := s.fry.fenced ||| (1#9 <<< u) } }

/-- Spare u takes number n. -/
def State.putSpare (s : State) (k u n : Nat) : State :=
  if k = 0 then { s with tok := { s.tok with spareUsed := true, spareFor := n } }
  else if k = 1 then { s with cls := if u = 32 then { s.cls with sp32 := some n } else { s.cls with sp33 := some n } }
  else if k = 2 then { s with tre := { s.tre with spare := some n } }
  else if k = 5 then { s with pil := if u = 16 then { s.pil with sp16 := some n } else { s.pil with sp17 := some n } }
  else if k = 6 then { s with fry := { s.fry with spareUsed := true, spareFor := n } }
  else s

/-- GO of a kind's register, and the number last written with it. -/
def State.setGo (s : State) (k n : Nat) (go : Bool) : State :=
  if k = 0 then { s with tok := { s.tok with swapLane := n, swapGo := go } }
  else if k = 1 then { s with cls := { s.cls with swapTile := n, swapGo := go } }
  else if k = 2 then { s with tre := { s.tre with swapEng := n, swapGo := go } }
  else if k = 3 then { s with tre := { s.tre with fstUnit := n } }
  else if k = 4 then { s with txt := { s.txt with fenceU := n } }
  else if k = 5 then { s with pil := { s.pil with swapCore := n, swapGo := go } }
  else { s with fry := { s.fry with swapLane := n, swapGo := go } }

/-- GO reads 0; the number last written stays, whether or not it came with the swap (R111, R134, R339). -/
def State.goDone (s : State) (k : Nat) : State :=
  if k = 0 then { s with tok := { s.tok with swapGo := false } }
  else if k = 1 then { s with cls := { s.cls with swapGo := false } }
  else if k = 2 then { s with tre := { s.tre with swapGo := false } }
  else if k = 5 then { s with pil := { s.pil with swapGo := false } }
  else if k = 6 then { s with fry := { s.fry with swapGo := false } }
  else s

def State.goReads (s : State) (k : Nat) : Bool :=
  if k = 0 then s.tok.swapGo else if k = 1 then s.cls.swapGo else if k = 2 then s.tre.swapGo
  else if k = 5 then s.pil.swapGo else if k = 6 then s.fry.swapGo else false

/-- Subsystem (R10) and counter bank of a kind. -/
def kindSub (k : Nat) : Nat :=
  if k = 0 then 6 else if k = 1 then 8 else if k = 2 then 10 else if k = 3 then 9 else if k = 4 then 7 else if k = 5 then 5 else 13

/-- The stamp at which a swap of the kind ends, where a time decides it. -/
def swapDue (k f : Nat) : Option Stamp :=
  if k = 0 then some (f + 49) else if k = 1 then some (f + 3072) else if k = 2 then some (f + 768)
  else if k = 5 then some (f + 2048) else none

/-- FENCED (R327). -/
def State.fencedNote (s : State) (k n : Nat) (spare : Bool) (f : Stamp) : State :=
  s.note 0xA1 0 0 f [pack 64 [(0, k), (4, n), (10, nb spare)]]

/-! ### Ferry groups (R301-R303) -/

/-- Lanes of a group. -/
def State.laneWidth (s : State) : Nat := 8 >>> s.fry.groups
def State.groupCount (s : State) : Nat := 2 ^ s.fry.groups
def State.groupOfLane (s : State) (n : Nat) : Nat := n / s.laneWidth

/-- A group trains from phase 1. -/
def State.train (s : State) (g : Nat) (f : Stamp) : State :=
  (s.setGroup g { s.group g with phase := .train 1, since := f }).count 13 0x16 1

/-- This block's LINK packet: its number, GROUPS, and the receive places of the group, the last of which the marker keeps (R298, R302). A
lane in `swap` asks the far end for the same swap (R303). -/
def State.linkPkt (s : State) (swap : Option Nat) : TxPkt := ⟨1, 0, 0, .link s.clk.blkNum s.fry.groups 1023 swap, false⟩

/-- A lane's group stops: it retrains on the new lane set, telling the far end, or stays down (R303). -/
def State.regroup (s : State) (n : Nat) (spare : Bool) (f : Stamp) : State :=
  let g := s.groupOfLane n
  if spare then
    let s := s.setGroup g { s.group g with swapped := some n }
    if s.fry.en then (s.transmit g (s.linkPkt (some n))).train g f else s
  else s.setGroup g { s.group g with phase := .down, swapped := none }

/-! ### A fence (R40, R89, R122, R303, R317) -/

/-- The slots of a core are closed until the stamp. -/
def State.closeSlots (s : State) (c : Nat) (until' : Stamp) : State :=
  (List.range 4).foldl (fun s k => s.setSlot (4 * c + k) { s.slot (4 * c + k) with free := until' }) s

/-- What the number's service does meanwhile. -/
def State.outage (s : State) (k n : Nat) (spare host : Bool) (f : Stamp) : State :=
  if k = 0 then (if spare then { s with tok := { s.tok with readyAt := Tab.set s.tok.readyAt n (f + 49) } } else s.putFence 0 n)
  else if k = 5 then (if spare && !host then s.closeSlots n (f + 2048) else s)
  else if k = 6 then s.regroup n spare f
  else s

/-- Swaps of a number that a new fence of it ends. -/
def State.swapsOf (s : State) (k n : Nat) : List Swap := s.wch.swaps.filter fun x => decide (x.kind = k) && decide (x.num = n)

/-- A physical unit is fenced at f; a free spare takes its number. A unit that serves no number leaves nothing to replace. A swap of the
number that was under way ends; what the host waits for goes over to the new swap, or, where no spare is left, is over: GO then reads 0
and UNIT_FENCE completes (R258). DESIGN CHOICE: a spare that is fenced while it serves a number stays the number's spare: of a lane,
SPARE_USED and SPARE_FOR stay set, and later writes of VY_TOK_SWAP are still rejected (log entry 95). -/
def State.fence (s : State) (k u : Nat) (host : Bool) (cmd : Option Nat) (f : Stamp) : State :=
  let number := s.numberOf k u
  let s := if k = 0 ∧ u ≠ 8 then s else s.putFence k u
  match number with
  | none => s.fencedNote k u false f
  | some n =>
    let olds := s.swapsOf k n
    let host := host || olds.any fun x => x.host
    let cmd := cmd.orElse fun _ => olds.findSome? fun x => x.cmd
    let s := { s with wch := { s.wch with swaps := s.wch.swaps.filter fun x => !(decide (x.kind = k) && decide (x.num = n)) } }
    match s.freeSpare k with
    | none =>
      let s := (s.outage k n false host f).fencedNote k n false f
      (if host then s.goDone k else s).completeOpt cmd stOK []
    | some u' =>
      let due := if k = 5 ∧ host then none else swapDue k f
      let s := ((s.putSpare k u' n).outage k n true host f).fencedNote k n true f
      { s with wch := { s.wch with swaps := s.wch.swaps ++ [⟨k, n, u, u', f, due, host, false, cmd, s.wch.injNow⟩] } }

/-! ### The end of a swap (R327, R331) -/

/-- GO reads 0 and the command completes. -/
def State.swapGone (s : State) (x : Swap) : State :=
  let s := { s with wch := { s.wch with swaps := s.wch.swaps.erase x } }
  let s := if x.host then s.goDone x.kind else s
  s.completeOpt x.cmd stOK []

/-- The SWAP record. -/
def State.logSwap (s : State) (k n u : Nat) (inj : Bool) (t : Stamp) : State :=
  s.logRec 0x02 (kindSub k) n k 0 inj t (pack 64 [(0, n), (8, u)]) 0 0

/-- The spare takes the number: SWAPPED, the record, the counter. -/
def State.endSwap (s : State) (x : Swap) (t : Stamp) : State :=
  let s := if x.kind = 1 then s.count 8 0x19 1 else if x.kind = 2 then s.count 10 0x18 1
    else if x.kind = 6 then s.count 13 0x17 1 else s
  let s := s.note 0xA2 0 0 t [pack 64 [(0, x.kind), (4, x.num), (12, x.unit)]]
  (s.logSwap x.kind x.num x.unit x.inj t).swapGone x

/-- When a swap ends: at its time, or, of a core that the host fences, 1,024 MCLK after its fence and the emptying of its slots (R317). -/
def State.swapEnd (s : State) (x : Swap) : Option Stamp :=
  if x.kind = 5 ∧ x.due = none then
    let ks := (List.range 4).map fun k => 4 * x.num + k
    if ks.all fun k => (s.job k).isNone then some (ks.foldl (fun a k => max a (s.slot k).free) x.since + 2048) else none
  else x.due

/-- A swap whose time has come: a tree engine's golden run follows it where SWAPCHK asks for one (R122). -/
def State.swapStep (s : State) (x : Swap) (t : Stamp) : State :=
  match s.swapEnd x with
  | none => s
  | some d =>
    if t < d then s
    else if x.kind = 2 ∧ s.tre.swapChk then
      { s with wch := { s.wch with swaps := s.wch.swaps.map fun y => if y = x then { x with due := none, check := true } else y } }
    else s.endSwap x d

def execSwapped (t : Stamp) (kind : BitVec 4) (num : BitVec 6) (s : State) : Out :=
  let s := s.upTo t (kSub (kindSub kind.toNat))
  match s.wch.swaps.find? fun x => decide (x.kind = kind.toNat) && decide (x.num = num.toNat) with
  | none => .next s
  | some x => if !s.running then .next s else .next (s.swapStep x s.tally)

/-! ### Golden runs (R110, R130) -/

/-- The failure of a unit in a golden run: record, fence. Its CRCs are free values (log entry 2). -/
def State.goldFail (s : State) (k u : Nat) (t : Stamp) : State :=
  let o := (Config.goldCrc s.fresh).setWidth 64
  let e := (Config.goldExpected s.fresh).setWidth 64
  let s := s.draw.logRec 0x07 (kindSub k) u k 0 false t (BitVec.ofNat 64 u) o e
  if k = 2 then s.count 10 0x17 1 else s

/-- Units that a run tests: those in service and the free spares. -/
def State.tested (s : State) (k n : Nat) : List Nat :=
  (List.range n).filter fun u => !s.unitFenced k u

def bitsOf (n : Nat) (l : List Nat) : BitVec n := l.foldl (fun a u => a ||| (1 <<< u : BitVec n)) 0

/-- A run over the whole classifier array or all tree engines ends. `bad` says whose CRC-32C differs (log entry 14). -/
def State.goldEnd (s : State) (k n : Nat) (bad : BitVec 34) (t : Stamp) : State :=
  let us := s.tested k n
  let fail := us.filter fun u => bitAt bad u
  let ok := us.filter fun u => !bitAt bad u
  let s := if k = 1 then { s with cls := { s.cls with goldPass := bitsOf 34 ok, goldDone := true, goldGo := false } }
    else { s with tre := { s.tre with goldPass := bitsOf 9 ok, goldDone := true, goldGo := false } }
  fail.foldl (fun s u => (s.goldFail k u t).fence k u false none t) s

/-- The run on a spare tree engine after its swap ends: it takes the number, or is fenced and the number stays out (R122). DESIGN CHOICE:
the run leaves its result in VY_TRE_GOLDRES as a run over all engines does: PASS becomes bit 8 alone, or none, and DONE is set, also
while a full run's GO reads 1 (log entry 96). -/
def State.checkEnd (s : State) (x : Swap) (bad : Bool) (t : Stamp) : State :=
  let s := { s with tre := { s.tre with goldPass := bitsOf 9 (if bad then [] else [8]), goldDone := true } }
  if bad then (((s.goldFail 2 8 t).putFence 2 8).fencedNote 2 x.num false t).swapGone x else s.endSwap x t

def execGoldenRunDone (t : Stamp) (trees : Bool) (bad : BitVec 34) (s : State) : Out :=
  let s := s.upTo t (kSub (if trees then 10 else 8))
  let u := s.tally
  if !s.running then .next s
  else if !trees then (if s.cls.goldGo then .next (s.goldEnd 1 34 bad u) else .next s)
  else match s.wch.swaps.find? fun x => x.check with
    | some x => .next (s.checkEnd x (bitAt bad 8) u)
    | none => if s.tre.goldGo then .next (s.goldEnd 2 9 bad u) else .next s

/-- A write of a golden-run register: ADDR, and GO, which is ignored while the units are enabled. -/
def State.writeClsGold (s : State) (data : Word) : State :=
  let s := { s with cls := { s.cls with goldAddr := fld data 0 40 } }
  if !bitAt data 48 then s
  else if s.cls.en then s.ignored 8
  else { s with cls := { s.cls with goldGo := true, goldDone := false, goldPass := 0 } }

def execClsGold (t : Stamp) (data : Word) (s : State) : Out := onWrite t s fun s => s.writeClsGold data

def State.writeTreGold (s : State) (data : Word) : State :=
  let s := { s with tre := { s.tre with goldAddr := fld data 0 40, swapChk := bitAt data 49 } }
  if !bitAt data 48 then s
  else if s.tre.en then s.ignored 10
  else { s with tre := { s.tre with goldGo := true, goldDone := false, goldPass := 0 } }

def execTreGold (t : Stamp) (data : Word) (s : State) : Out := onWrite t s fun s => s.writeTreGold data

/-! ### Fences by the host -/

/-- The physical unit that serves a number. -/
def State.unitFor (s : State) (k n : Nat) : Nat :=
  if s.unitFenced k n then ((spares k).find? fun u => !s.unitFenced k u && decide (s.serves k u = some n)).getD n else n

/-- Is the number's own unit fenced already (R258)? A lane that the spare serves is in service. -/
def State.isFenced (s : State) (k n : Nat) : Bool := if k = 0 then bitAt s.tok.fenced n else s.unitFenced k n

/-- The slots whose jobs have a call in progress on a text unit. -/
def State.textJobs (s : State) (n : Nat) : List Nat :=
  s.pil.slots.filterMap fun p => p.2.job.bind fun j =>
    if j.calls.any fun c => decide (c.op.cls = 3) && (match c.started with
      | some x => decide (x.2 = n)
      | none => false)
    then some p.1 else none

/-- A unit without a spare is fenced by the host. A call in progress on a text unit faults the job (R65); a front-stage unit, of which R112
has a call fault where a detector trips, finishes the one that runs (15 R356; DEDUCED, log entry 54). A view builder that is fenced loses
nothing: its chunk is rebuilt on the other (R65). -/
def State.fenceUnit (s : State) (k n : Nat) (cmd : Option Nat) (f : Stamp) : State :=
  let js := if k = 4 then s.textJobs n else []
  let s := s.fence k n true none f
  (js.foldl (fun s j => s.jobFault j 9 0 f) s).completeOpt cmd stOK []

/-- A host fence at f: GO is set until it ends. -/
def State.hostFence (s : State) (k n : Nat) (cmd : Option Nat) (f : Stamp) : State :=
  let s := s.setGo k n (decide (k ≠ 3) && decide (k ≠ 4))
  if k = 3 ∨ k = 4 then s.fenceUnit k n cmd f else s.fence k (s.unitFor k n) true cmd f

/-- Is the spare of a kind in use? -/
def State.spareUsed (s : State) (k : Nat) : Bool := (s.serves k 8).isSome

/-- The condition under which a host fence of the kind is rejected (R258): a kind with one spare while it is in use, tiles and cores while
no spare is free. -/
def State.noSpare (s : State) (k : Nat) : Bool :=
  if k = 3 ∨ k = 4 then false else if k = 1 ∨ k = 5 then (s.freeSpare k).isNone else s.spareUsed k

/-- GO of a register written 1: rejected while a fence runs, the unit is fenced, or no spare can take its number (R258, R317). -/
def State.hostGo (s : State) (k n bank : Nat) : State :=
  if s.goReads k || s.isFenced k n || s.noSpare k then s.ignored bank else s.hostFence k n none s.tally

/-- A write of VY_TOK_SWAP is rejected whole while the spare is in use (R41). -/
def State.writeTokSwap (s : State) (data : Word) : State :=
  if s.spareUsed 0 then s.ignored 6
  else if bitAt data 8 then s.hostGo 0 (fld data 0 3) 6
  else { s with tok := { s.tok with swapLane := fld data 0 3 } }

def execTokSwap (t : Stamp) (data : Word) (s : State) : Out := onWrite t s fun s => s.writeTokSwap data

def State.writeTxtFence (s : State) (data : Word) : State :=
  let n := fld data 0 5
  if n > 21 then s.ignored 7
  else if bitAt data 8 && !s.unitFenced 4 n then s.hostFence 4 n none s.tally
  else { s with txt := { s.txt with fenceU := n } }

def execTxtFence (t : Stamp) (data : Word) (s : State) : Out := onWrite t s fun s => s.writeTxtFence data

/-- TILE names a tile 0-31; GO for another number has nothing to fence and is rejected. -/
def State.writeClsSwap (s : State) (data : Word) : State :=
  let n := fld data 0 6
  if bitAt data 8 then (if n > 31 then s.ignored 8 else s.hostGo 1 n 8)
  else { s with cls := { s.cls with swapTile := n } }

def execClsSwap (t : Stamp) (data : Word) (s : State) : Out := onWrite t s fun s => s.writeClsSwap data

def State.writeTreSwap (s : State) (data : Word) : State :=
  let n := fld data 0 3
  if bitAt data 8 then s.hostGo 2 n 10 else { s with tre := { s.tre with swapEng := n } }

def execTreSwap (t : Stamp) (data : Word) (s : State) : Out := onWrite t s fun s => s.writeTreSwap data

def State.writeFstFence (s : State) (data : Word) : State :=
  let n := fld data 0 1
  if bitAt data 8 && !s.unitFenced 3 n then s.hostFence 3 n none s.tally
  else { s with tre := { s.tre with fstUnit := n } }

def execFstFence (t : Stamp) (data : Word) (s : State) : Out := onWrite t s fun s => s.writeFstFence data

def State.writePilSwap (s : State) (data : Word) : State :=
  let n := fld data 0 4
  if bitAt data 8 then s.hostGo 5 n 5 else { s with pil := { s.pil with swapCore := n } }

def execPilSwap (t : Stamp) (data : Word) (s : State) : Out := onWrite t s fun s => s.writePilSwap data

def State.writeFrySwap (s : State) (data : Word) : State :=
  let n := fld data 0 3
  if bitAt data 8 then s.hostGo 6 n 13 else { s with fry := { s.fry with swapLane := n } }

def execFrySwap (t : Stamp) (data : Word) (s : State) : Out := onWrite t s fun s => s.writeFrySwap data

/-- Units of a kind that the host may fence (R258). -/
def kindSize (k : Nat) : Nat :=
  if k = 0 then 8 else if k = 1 then 32 else if k = 2 then 8 else if k = 3 then 2 else if k = 4 then 22 else if k = 5 then 16
  else if k = 6 then 8 else 0

/-- UNIT_FENCE (R258). -/
def State.unitFence (s : State) (c : Cmd) : State :=
  let k := fld (c.word 2) 0 4
  let n := fld (c.word 2) 4 6
  if n ≥ kindSize k then s.complete c.id stBAD_ARG []
  else if s.goReads k || s.isFenced k n then s.complete c.id stBUSY []
  else if s.noSpare k then s.complete c.id stNO_SPARE []
  else s.hostFence k n (some c.id) s.tally

def execUnitFence (t : Stamp) (s : State) : Out := onCommand t 0x31 true s fun s c => s.unitFence c

end Sys2Proof.Machine
end

