-- ==== Sys2Proof/Machine/Ferry.lean ====
section
/-! DEFINITION. Ferry.lean: the Ferry link (13 R301-R310): training, packets and their checks, transfers, mirroring, peer life; the
commands FERRY_LINK_PACKET, OFFER, STATE, STATE_END, ACK, NAK, MIRROR, BEAT, BEAT_SEND, PEER_LOST, TRAINING_PHASE_TIMEOUT,
TRAINING_PHASE_COMPLETE, OFFER_TIMEOUT, XFER_TIMEOUT, FRY_TRAINING_START. -/

namespace Sys2Proof.Machine

/-! ### Training (R302) -/

/-- The limit of a training phase. -/
def phaseLimit (n : Nat) : Nat := if n = 2 then 24000000 else 2400000

/-- A phase exceeds its limit by t: LINK_DOWN, and training starts again at phase 1. -/
def State.phaseTimeout (s : State) (g : Nat) (t : Stamp) : State :=
  let x := s.group g
  match x.phase with
  | .train n =>
    let d := x.since + phaseLimit n
    if t < d then s else (s.note 0xB1 0 0 d [pack 64 [(0, g), (3, n)]]).train g d
  | _ => s

def execTrainingPhaseTimeout (t : Stamp) (group : Fin 8) (s : State) : Out :=
  let s := s.upTo t (kSub 13)
  if !s.running then .next s else .next (s.phaseTimeout group s.tally)

/-- Phase 1, 2 or 3 completes within its limit; phase 4 sends this block's LINK packet. -/
def State.phaseDone (s : State) (g : Nat) (t : Stamp) : State :=
  let x := s.group g
  match x.phase with
  | .train n =>
    if n ≥ 4 ∨ x.since + phaseLimit n ≤ t then s
    else
      let s := s.setGroup g { x with phase := .train (n + 1), since := t }
      if n = 3 then s.transmit g (s.linkPkt none) else s
  | _ => s

def execTrainingPhaseComplete (t : Stamp) (group : Fin 8) (s : State) : Out :=
  let s := s.upTo t (kSub 13)
  if !s.running then .next s else .next (s.phaseDone group s.tally)

/-- A write of VY_FRY_CTL (R310, R302): GROUPS and LOOP only while EN = 0; a rise of EN starts the training of every group, a fall puts
every lane in electrical idle. -/
def State.writeFryCtl (s : State) (data : Word) : State :=
  s.gated [(s.fry.en, bitAt data 0)] fun s =>
    let was := s.fry.en
    let now := bitAt data 0
    let s := { s with fry := { s.fry with en := now, miren := bitAt data 4, mirg := fld data 5 3
                                          groups := if was then s.fry.groups else fld data 1 2
                                          loop := if was then s.fry.loop else bitAt data 3 } }
    if !was && now then (List.range s.groupCount).foldl (fun s g => s.train g s.tally) s
    else if was && !now then
      { s with fry := { s.fry with grp := s.fry.grp.map fun x => { x with phase := .down, lastGood := none }
                                   looped := [] } }
    else s

def execFryTrainingStart (t : Stamp) (data : Word) (s : State) : Out := onWrite t s fun s => s.writeFryCtl data

/-! ### Receiving a packet (R304, R305) -/

/-- The link-level NAK, of LEN 0: its ACKSEQ is the last good SEQ. -/
def State.linkNak (s : State) (g : Nat) : State := s.sendAll g [⟨6, 0, 0, .none, false⟩]

/-- What the checks of R305 say of a packet. -/
inductive Rx where
  | drop (s : State)
  | take (s : State)

/-- Is the peer of a group lost at t: no good packet for 1 ms (R308)? PEER_LOST is raised at the stamp at which the time ends. -/
def State.peerDue (s : State) (g : Nat) (t : Stamp) : State :=
  let x := s.group g
  match x.lastGood with
  | none => s
  | some b =>
    let d := b + 2400000
    if t < d then s else (s.setGroup g { x with lastGood := none, lost := true }).note 0xB3 0 0 d [pack 64 [(0, g), (3, x.peer)]]

/-- Codewords that end with a packet: up to 15 symbol errors are corrected, more are not (R301, R310; 16 R367). -/
def State.fecCount (s : State) (p : PktHdr) : State :=
  let ok := (p.errs.filter fun n => decide (1 ≤ n) && decide (n ≤ 15)).length
  let bad := (p.errs.filter fun n => decide (15 < n)).length
  (({ s with fry := { s.fry with
    fecOk := (s.fry.fecOk + ok) % 2 ^ 32
    fecBad := (s.fry.fecBad + bad) % 2 ^ 32 } } : State).count 13 0x14 ok).count 13 0x15 bad

/-- Does a packet pass the CRC check? A codeword that cannot be corrected fails every packet that it touches (R301). -/
def pktSound (p : PktHdr) : Bool := p.good && p.errs.all fun n => decide (n ≤ 15)

/-- A packet whose CRC holds is proof of life (R308). -/
def State.proof (s : State) (g : Nat) : State :=
  let s := s.peerDue g s.tally
  (s.setGroup g { s.group g with lastGood := some s.tally }).count 13 0x11 1

/-- Does a packet follow the SEQ `last`, less than half the sequence range ahead of it? -/
def Sent.after (last : Nat) (w : Sent) : Bool :=
  let d := (w.seq + 65536 - last) % 65536
  decide (0 < d) && decide (d < 32768)

/-- A packet that is not discarded returns its CRED, and acknowledges what the retry buffer holds up to its ACKSEQ (R304, R305). -/
def State.credit (s : State) (g : Nat) (p : PktHdr) : State :=
  let x := s.group g
  (s.setGroup g { x with link := x.link + p.cred.toNat, retry := x.retry.filter (Sent.after p.ack.toNat) }).pumpAll g

/-- CRC and SEQ: a packet that fails is discarded, its CRED and ACKSEQ with it, and answered with a NAK; one already received is discarded.
A packet that is taken and
needed a credit passes through a place of the receive queue, which is free again at once (R297, R305); a level of 1 is met each time
(R299). -/
def State.rx (s : State) (g : Nat) (p : PktHdr) (credited : Bool) : Rx :=
  let s := s.fecCount p
  if !pktSound p then .drop (s.linkNak g)
  else
    let s := s.proof g
    let x := s.group g
    let ahead := (p.seq.toNat + 65536 - x.rxSeq) % 65536
    if ahead = 0 then
      let s := s.setGroup g { x with rxSeq := (x.rxSeq + 1) % 65536, freed := x.freed + nb credited }
      .take ((if credited ∧ x.rxQ.ie ∧ x.rxQ.level = 1 then s.irq s.tally else s).credit g p)
    else if ahead ≥ 32768 then .drop s
    else .drop (s.linkNak g)

/-- With LOOP = 1 a group receives what it has sent, in order, and nothing else (R310): the packet at hand, if it is the next of them. -/
def State.loopTake (s : State) (g : Nat) (p : PktHdr) (is : TxPkt → Bool) : Option State :=
  if !s.fry.loop then some s
  else match s.fry.looped.find? fun w => decide (w.group = g) with
    | none => none
    | some w =>
      if w.seq = p.seq.toNat ∧ w.cred = p.cred.toNat ∧ w.ack = p.ack.toNat ∧ is w.pkt then
        some { s with fry := { s.fry with looped := s.fry.looped.erase w } }
      else none

/-- A packet of a group that is up, and its effect when it is accepted. `is` says which packet of the sender it is. -/
def onPacket (t : Stamp) (g : Fin 8) (p : PktHdr) (is : TxPkt → Bool) (s : State) (f : State → State) : Out :=
  let s := s.upTo t 0
  if !s.running || !s.fry.en || !(s.group g).isUp then .next s
  else match s.loopTake g p is with
    | none => .next s
    | some s => match s.rx g p true with
      | .drop s => .next s
      | .take s => .next (f s)

/-! ### LINK packets (R302, R303) -/

/-- The requests whose transfer goes over a group and waits for its answer: OFFER is sent again when the group is up (R307). DESIGN CHOICE:
the time limit of the transfer starts anew with it (log entry 17). -/
def State.resend (s : State) (g : Nat) : State :=
  s.man.entries.foldl (fun s p =>
    match p.2.req.mig with
    | some m =>
      match m.xfer with
      | some x =>
        if p.2.state = .migOut ∧ m.acked = false ∧ s.cmdOpen m.cmd ∧ (s.group g).peer = p.2.peer then
          (s.sendAll g [s.offerPkt p.1 x (s.stateSize p.1)]).updReq p.1 fun r => { r with mig := some { m with offer := s.tally } }
        else s
      | none => s
    | none => s) s

/-- The group is up (R302, R303): the credits are those that phase 4 announced, so what the retry buffer holds returns none; LINK_UP,
LANE_SWAPPED with the end of its swap, waiting packets. -/
def State.groupUp (s : State) (g peer groups credits : Nat) (t : Stamp) : State :=
  let x := s.group g
  let lane := x.swapped
  let s := s.setGroup g { x with
    phase := .up, since := t, peer := peer, theirs := groups, link := credits, freed := 0, retry := x.retry.map fun w => { w with cred := 0 }, beatAt := t, lost := false, swapped := none }
  let s := { s with fry := { s.fry with grp := s.fry.grp.map fun (y : Group) => if y.peer = peer then { y with lost := false } else y } }
  let s := s.note 0xB0 0 0 t [pack 64 [(0, g), (3, peer)]]
  let s := match lane with
    | some n =>
      let s := s.note 0xB2 0 0 t [pack 64 [(0, n), (3, g)]]
      match s.wch.swaps.find? fun (w : Swap) => decide (w.kind = 6) && decide (w.num = n) with
      | some w => s.endSwap w t
      | none => s
    | none => s
  (s.resend g).pumpAll g

/-- The far end orders the swap of a lane (R303). -/
def State.orderedSwap (s : State) (g n : Nat) (t : Stamp) : State :=
  if s.groupOfLane n = g ∧ s.unitFenced 6 n = false then s.fence 6 n false none t else s

def TxPkt.isLink (peer groups credits : Nat) (swap : Option Nat) (q : TxPkt) : Bool :=
  decide (q.typ = 1) && decide (q.body = .link peer groups credits swap)

def execFerryLinkPacket (t : Stamp) (group : Fin 8) (p : PktHdr) (peer : LinkEnd) (credits : BitVec 10) (swap : Option (Fin 8))
    (s : State) : Out :=
  let s := s.upTo t 0
  let x := s.group group
  let four := decide (x.phase = .train 4) && decide (s.tally < x.since + phaseLimit 4)
  if !s.running || !s.fry.en || !(x.isUp || four) then .next s
  else match s.loopTake group p (TxPkt.isLink peer.block.toNat peer.groups.toNat credits.toNat (swap.map fun n => n.val)) with
    | none => .next s
    | some s => match s.rx group p false with
      | .drop s => .next s
      | .take s =>
        match swap with
        | some n => .next (s.orderedSwap group n s.tally)
        | none => if four then .next (s.groupUp group peer.block.toNat peer.groups.toNat credits.toNat s.tally) else .next s

/-! ### State transfer, the receiving side (R307) -/

/-- Offers that wait for a MIGRATE_IN. -/
def State.waiting (s : State) : List Offer := s.fry.offers.filter fun o => (s.waiterOf o).isNone

def State.dropOffer (s : State) (g xfer : Nat) : State :=
  { s with fry := { s.fry with offers := s.fry.offers.filter fun o => !(decide (o.group = g) && decide (o.xfer = xfer)) } }

/-- An OFFER is refused by a NAK. -/
def State.refuse (s : State) (o : Offer) (reason : Nat) : State :=
  ((s.dropOffer o.group o.xfer).sendNak o.group o.dom o.xfer reason).count 13 0x18 1

/-- An OFFER joins those that wait; a 65th displaces the oldest. One that repeats a transfer already known changes nothing. -/
def State.takeOffer (s : State) (o : Offer) : State :=
  if s.fry.offers.any fun q => decide (q.group = o.group) && decide (q.xfer = o.xfer) then s
  else
    let s := match s.waiting with
      | w :: _ => if (s.waiterOf o).isNone ∧ s.waiting.length ≥ 64 then s.refuse w 0x04 else s
      | [] => s
    { s with fry := { s.fry with offers := s.fry.offers ++ [o] } }

def execOffer (t : Stamp) (group : Fin 8) (p : PktHdr) (xfer : BitVec 16) (dom : BitVec 8) (src : Handle) (epoch : BitVec 16)
    (h bytes : BitVec 32) (s : State) : Out :=
  onPacket t group p (fun q => decide (q.typ = 2) && decide (q.xfer = xfer.toNat) && decide (q.dom = dom.toNat) &&
    decide (q.body = .offer src epoch.toNat h.toNat bytes.toNat)) s fun s => s.takeOffer
    ⟨group, xfer.toNat, dom.toNat, src, epoch.toNat, h.toNat, bytes.toNat, s.tally, [], false, 0⟩

/-- Apply f to an offer of a transfer that is not finished. -/
def State.updOffer (s : State) (g xfer : Nat) (f : Offer → Offer) : State :=
  { s with fry := { s.fry with offers := s.fry.offers.map fun o =>
      if o.group = g ∧ o.xfer = xfer ∧ o.done = false then f o else o } }

def execState (t : Stamp) (group : Fin 8) (p : PktHdr) (xfer : BitVec 16) (payload : List Byte) (s : State) : Out :=
  onPacket t group p (fun q => decide (q.typ = 3) && decide (q.xfer = xfer.toNat) && decide (q.body = .data payload)) s
    fun s => s.updOffer group xfer.toNat fun o => { o with got := o.got ++ payload.take 240 }

/-- STATE_END: the transfer is whole, and is placed and checked once a MIGRATE_IN waits for it and requests are issued (R309). -/
def State.endOffer (s : State) (g xfer : Nat) (crc : BitVec 32) : State :=
  let s := s.updOffer g xfer fun o => { o with done := true, crc := crc }
  match s.fry.offers.find? fun o => decide (o.group = g) && decide (o.xfer = xfer) && o.done with
  | none => s
  | some o =>
    match s.waiterOf o with
    | some i => if s.mem.en then s.receive i o s.tally else s
    | none => s

def execStateEnd (t : Stamp) (group : Fin 8) (p : PktHdr) (xfer : BitVec 16) (crc : BitVec 32) (s : State) : Out :=
  onPacket t group p (fun q => decide (q.typ = 4) && decide (q.xfer = xfer.toNat) && decide (q.body = .crc crc)) s
    fun s => s.endOffer group xfer.toNat crc

def execOfferTimeout (t : Stamp) (group : Fin 8) (xfer : BitVec 16) (s : State) : Out :=
  let s := s.upTo t (kSub 13)
  match s.waiting.find? fun o => decide (o.group = group.val) && decide (o.xfer = xfer.toNat) with
  | none => .next s
  | some o =>
    if !s.running || decide (s.tally < o.stamp + 2400 * s.man.migto) then .next s else .next (s.refuse o 0x03)

/-! ### State transfer, the sending side (R307) -/

/-- Has the time for the answer to an OFFER ended: twice the sender's MIGTO (R307), half open (00 R3)? -/
def MigOut.late (m : MigOut) (t : Stamp) : Bool := decide (m.offer + 4800 * m.limit ≤ t)

/-- The entry whose transfer over a group has the number, while its answer is awaited. -/
def State.sender (s : State) (g xfer : Nat) : Option (Nat × MigOut) :=
  s.man.entries.findSome? fun p => p.2.req.mig.bind fun m =>
    if p.2.state = .migOut ∧ p.2.peer = (s.group g).peer ∧ m.xfer = some xfer ∧ m.acked = false ∧ s.cmdOpen m.cmd ∧
        m.late s.tally = false then
      some (p.1, m) else none

def execAck (t : Stamp) (group : Fin 8) (p : PktHdr) (xfer : BitVec 16) (s : State) : Out :=
  onPacket t group p (fun q => decide (q.typ = 5) && decide (q.xfer = xfer.toNat)) s fun s =>
    match s.sender group xfer.toNat with
    | some x => s.updReq x.1 fun r => { r with mig := some { x.2 with acked := true } }
    | none => s

/-- The transfer fails: MIGRATE_OUT completes, and the entry stays in MIG_OUT (R307). -/
def State.failOut (s : State) (i g : Nat) (m : MigOut) (status : Nat) (t : Stamp) : State :=
  (s.xferFail (s.entry i).dom (s.handleOf i) g (m.xfer.getD 0) t).completeOpt (some m.cmd) status []

/-- The packets sent after a SEQ are sent again out of the retry buffer, with the CRED they returned (R305). -/
def State.repeatFrom (s : State) (g last : Nat) : State :=
  let x := s.group g
  let ws := (x.retry.filter (Sent.after last)).map fun w => { w with stamp := s.tally, ack := (x.rxSeq + 65535) % 65536 }
  let q := s.fry.sent ++ ws
  ({ s with fry := { s.fry with
    sent := q.drop (q.length - 512)
    looped := if s.fry.loop then s.fry.looped ++ ws else s.fry.looped
    repeated := (s.fry.repeated + ws.length) % 2 ^ 32 } } : State).count 13 0x12 ws.length

/-- A NAK of a transfer with its REASON. -/
def State.takeNak (s : State) (g xfer reason : Nat) (t : Stamp) : State :=
  match s.sender g xfer with
  | none => s
  | some x => s.failOut x.1 g x.2 (if reason = 0x01 ∨ reason = 0x02 then stMISMATCH else stTIMEOUT) t

def execNak (t : Stamp) (group : Fin 8) (p : PktHdr) (xfer : BitVec 16) (len reason : BitVec 8) (last : BitVec 16) (s : State) :
    Out :=
  onPacket t group p (fun q => decide (q.typ = 6) && decide (q.xfer = xfer.toNat) &&
    decide (q.body = if len = 0 then .none else .reason reason.toNat)) s fun s =>
    if len = 0 then s.repeatFrom group last.toNat else s.takeNak group xfer.toNat reason.toNat s.tally

def execXferTimeout (t : Stamp) (idx : BitVec 16) (s : State) : Out :=
  let s := s.upTo t (kSub 13)
  let i := idx.toNat
  let e := s.entry i
  match e.req.mig with
  | none => .next s
  | some m =>
    if s.running && decide (e.state = .migOut) && m.xfer.isSome && !m.acked && s.cmdOpen m.cmd && m.late s.tally then
      .next (s.failOut i (((List.range 8).find? fun g => decide ((s.group g).peer = e.peer)).getD 0) m stTIMEOUT s.tally)
    else .next s

/-! ### Mirroring and peer life (R308) -/

/-- A MIRROR packet's bytes go to the mirror slot. -/
def State.takeMirror (s : State) (idx off : Nat) (bs : List Byte) : State := s.mirrorWrite (s.fry.mirbase + idx * 65536 + off) bs

def execMirror (t : Stamp) (group : Fin 8) (p : PktHdr) (idx off : BitVec 16) (payload : List Byte) (s : State) : Out :=
  onPacket t group p (fun q => decide (q.typ = 7) && decide (q.body = .mirror idx.toNat off.toNat payload)) s
    fun s => s.takeMirror idx.toNat off.toNat (payload.take 240)

/-- A BEAT carries no SEQ of its own: its CRC alone is checked. -/
def execBeat (t : Stamp) (group : Fin 8) (p : PktHdr) (s : State) : Out :=
  let s := s.upTo t 0
  if !s.running || !s.fry.en || !(s.group group).isUp then .next s
  else match s.loopTake group p fun q => decide (q.typ = 8) with
    | none => .next s
    | some s =>
      let s := s.fecCount p
      if pktSound p then .next ((s.proof group).credit group p) else .next (s.linkNak group)

def execBeatSend (t : Stamp) (group : Fin 8) (s : State) : Out :=
  let s := s.upTo t (kSub 13)
  let x := s.group group
  if !s.running || !x.isUp || decide (s.tally < x.beatAt + 24000) then .next s
  else .next ((s.setGroup group { x with beatAt := x.beatAt + 24000 }).transmit group ⟨8, 0, 0, .none, false⟩)

def execPeerLost (t : Stamp) (group : Fin 8) (s : State) : Out :=
  let s := s.upTo t (kSub 13)
  if !s.running || !s.fry.en then .next s else .next (s.peerDue group s.tally)

end Sys2Proof.Machine
end

