-- ==== Sys2Proof/Machine/Watch.lean ====
section
/-! DEFINITION. Watch.lean: detectors and their actions (14 R314, R315, R318), repairs, recovery (R321-R324) and injection (R319,
R320, R340; 11 R259): DETECTOR_TRIP, REPAIR_DONE, RESTORE_END, RECOVERY_LIMIT, INJECT, INJECTION, INJECTION_LAPSE, INJ_DISARM. -/

namespace Sys2Proof.Machine

/-! ### The table of R314 -/

/-- Instances of a detector. -/
def instances (code : Nat) : Nat :=
  if code = 0x01 then 9 else if code = 0x07 then 18 else if code = 0x08 then 64 else if code = 0x09 then 34
  else if code = 0x0A then 38 else if code = 0x0B then 2 else if code = 0x0C then 9 else if code = 0x0D then 22
  else if code = 0x0E then 16 else if code = 0x10 then 9 else if code = 0x11 then 4
  else if 1 ≤ code ∧ code ≤ 0x12 then 1 else 0

/-- Injection modes of a detector: 1 TRIP, 2 FLIP1, 3 FLIP2, 4 ERR. -/
def modes (code : Nat) : List Nat :=
  if code = 0x01 ∨ code = 0x07 ∨ code = 0x09 ∨ code = 0x0C then [1, 2]
  else if code = 0x02 ∨ code = 0x03 ∨ code = 0x04 ∨ code = 0x06 then [2, 3]
  else if code = 0x05 ∨ code = 0x08 ∨ code = 0x0A ∨ code = 0x0F then [2]
  else if code = 0x0B ∨ code = 0x0D ∨ code = 0x11 ∨ code = 0x12 then [1]
  else if code = 0x0E ∨ code = 0x10 then [4]
  else []

/-- Subsystem of a detector (R10). -/
def codeSub (code inst : Nat) : Nat :=
  if code ≤ 0x04 then 6 else if code = 0x05 then 11 else if code = 0x06 then 2 else if code = 0x07 ∨ code = 0x08 then 5
  else if code = 0x09 then 8
  else if code = 0x0A then (if inst = 0 then 8 else if inst = 1 then 10 else if inst = 2 then 9 else if inst ≤ 19 then 7 else 5)
  else if code = 0x0B then 9 else if code = 0x0C then 10 else if code = 0x0D then 7 else if code = 0x0E ∨ code = 0x0F then 12
  else if code = 0x10 then 13
  else if code = 0x11 then (if inst = 0 then 11 else if inst = 1 then 4 else if inst = 2 then 1 else 14)
  else 0

/-- The fence KIND (R258) of a detector whose action is SPARE or FENCE. -/
def codeKind (code : Nat) : Option Nat :=
  if code = 0x01 then some 0 else if code = 0x07 then some 5 else if code = 0x09 then some 1 else if code = 0x0B then some 3
  else if code = 0x0C then some 2 else if code = 0x0D then some 4 else if code = 0x10 then some 6 else none

/-! ### Transfers marked FAULT (02 R40) -/

/-- Transfers of a lane captured in [f - 11, f]. -/
def Flight.onLane (x : Flight) (lane : Nat) (f : Stamp) : Bool :=
  decide (x.lane = lane) && decide (f ≤ x.stamp + 11) && decide (x.stamp ≤ f)

/-! ### Jobs that use a unit (R315 SPARE) -/

/-- The swap of a core's number that waits until the jobs on the old core have left (R317). -/
def State.coreSwap (s : State) (n : Nat) : Option Swap :=
  s.wch.swaps.find? fun x => decide (x.kind = 5) && decide (x.num = n) && x.host

/-- Is a physical unit a spare that has yet to take its number? -/
def State.incoming (s : State) (k u : Nat) : Bool := s.wch.swaps.any fun x => decide (x.kind = k) && decide (x.unit = u)

/-- Job slots whose job uses a physical unit of a kind that serves the number n: it runs on the core, or has a call in progress on the
unit. On a core that the host fences its jobs run until they leave it. -/
def State.usersOf (s : State) (k u n : Nat) : List Nat :=
  s.pil.slots.filterMap fun p => p.2.job.bind fun j =>
    let on := fun (op : CallOp → Bool) (m : Nat) => j.calls.any fun c => op c.op && (match c.started with
      | some x => decide (x.2 = m)
      | none => false)
    let uses :=
      if k = 5 then decide (p.1 / 4 = n) && (match s.coreSwap n with
        | some x => decide (x.old = u)
        | none => true)
      else if k = 1 then !s.incoming 1 u && on (fun o => decide (o = .classify)) 0
      else if k = 2 then on (fun o => decide (o = .tree)) u
      else if k = 3 then on (fun o => decide (o = .feature)) (16 + u)
      else if k = 4 then on (fun o => decide (o.cls = 3)) u
      else false
    if uses then some p.1 else none

/-- Requests of job slots. -/
def State.requestsOf (s : State) (ks : List Nat) : List Nat :=
  (ks.filterMap fun k => (s.job k).bind fun j => s.live j.handle).eraseDups

/-- Every job in the slots faults with DETECTOR. -/
def State.faultJobs (s : State) (ks : List Nat) (code : Nat) (f : Stamp) : State :=
  ks.foldl (fun s k => s.jobFault k 9 code f) s

/-! ### Block failure (R318) -/

/-- Outputs but ALIVE take the values of R286, Ferry transmitters go idle, and BLOCK_FAIL stands ahead of every staged record. -/
def State.blockFail (s : State) (code inst : Nat) (f : Stamp) : State :=
  let s := s.closePlaces (fun _ => true) f
  let q := s.withSeq (s.newRec 0x0B 0 code 0 false f f (BitVec.ofNat 64 inst) 0 0)
  let s := (q.1.putStaging (q.2 :: q.1.wch.staging) f).count 14 0x17 1
  { s with
    clk := { s.clk with phase := .failing, kind := min s.clk.kind 1 }
    pins := Pins.idle
    fry := { s.fry with grp := s.fry.grp.map fun x => { x with phase := .down } } }

/-! ### Actions (R315) -/

/-- What a trip concerns: its detector, the operands of DETECTOR_TRIP, and whether it was injected. -/
structure Trip where
  code      : Nat
  inst      : Nat
  place     : Nat
  corrected : Bool
  inj       : Bool
deriving DecidableEq, Repr

/-- DETECT for a trip of a unit, or of request i. -/
def State.tripNote (s : State) (x : Trip) (action nreq : Nat) (i : Option Nat) (f : Stamp) : State :=
  let h := (i.map fun k => s.handleOf k).getD 0
  let d := (i.map fun k => (s.entry k).dom).getD 0
  s.detect x.code x.inst action (codeSub x.code x.inst) d h x.inj (decide (action ≠ 0) || s.wch.ceNote) nreq f

/-- COUNT. -/
def State.tripCount (s : State) (x : Trip) (f : Stamp) : State :=
  (({ s with wch := { s.wch with ce := (s.wch.ce + 1) % 2 ^ 48 } } : State).count 14 0x11 1).tripNote x 0 0 none f

/-- The number of a list's requests that recover, and the request of a list of one. -/
def State.recovering (s : State) (is : List Nat) : Nat := (is.filter fun i => s.recovers i).length
def onlyOne (is : List Nat) : Option Nat := match is with
  | [i] => some i
  | _ => none

/-- SPARE and FENCE: the unit is fenced, transfers on a failed lane are marked, jobs that use the unit fault. -/
def State.tripUnit (s : State) (x : Trip) (k : Nat) (f : Stamp) : State :=
  let act := if k = 3 ∨ k = 4 then 2 else 1
  match s.numberOf k x.inst with
  | none => (s.tripNote x act 0 none f).fence k x.inst false none f
  | some n =>
    if k = 0 then
      let q := s.markFaults fun y => y.onLane n f && !s.incoming 0 x.inst
      ((q.1.tripNote x 1 (s.recovering q.2) none f).fence 0 x.inst false none f).recoverAll q.2 x.code f
    else
      let ks := s.usersOf k x.inst n
      ((s.tripNote x act (s.recovering (s.requestsOf ks)) none f).fence k x.inst false none f).faultJobs ks x.code f

/-- The transfers that a fenced lane pipeline had captured up to f and that are still in flight: those of its lane, until the spare served
it (R40). -/
def State.leftOn (s : State) (u : Nat) (old : Option Swap) (f : Stamp) (y : Flight) : Bool :=
  match old with
  | some w => y.onLane w.num f && decide (y.stamp ≤ w.since)
  | none => decide (u < 8) && y.onLane u f && !(s.tok.spareUsed && decide (s.tok.spareFor = u))

/-- A trip of a unit that is fenced already: the host fenced it, and it finishes what it had begun (R41, 06 R122, R317). What it still
serves faults; there is nothing more to fence. -/
def State.tripFenced (s : State) (x : Trip) (k : Nat) (f : Stamp) : State :=
  let old := s.wch.swaps.find? fun w => decide (w.kind = k) && decide (w.old = x.inst) && w.host
  if k = 0 then
    let hit := s.leftOn x.inst old f
    let q := s.markFaults hit
    if s.tok.path.any fun y => hit y && !y.fault then (q.1.tripNote x 1 (s.recovering q.2) none f).recoverAll q.2 x.code f else s
  else
    let ks := match old with
      | some w => s.usersOf k x.inst w.num
      | none => if k = 2 ∨ k = 3 then s.usersOf k x.inst x.inst else []
    if ks.isEmpty then s else (s.tripNote x 1 (s.recovering (s.requestsOf ks)) none f).faultJobs ks x.code f

/-- The entry at a place that names one; none beyond the Manifest and for a free entry. -/
def State.placeEntry (s : State) (place : Nat) : Option Nat :=
  if place < 65536 ∧ (s.entry place).state ≠ .free then some place else none

/-- REQUEST for one request: it recovers. -/
def State.tripRequest (s : State) (x : Trip) (action : Nat) (f : Stamp) : State :=
  match s.placeEntry x.place with
  | none => s.tripNote x action 0 none f
  | some i => (s.tripNote x action (nb (s.recovers i)) (some i) f).faultRequest i 9 x.code f

/-- The request whose state a word of the token state table or the frame store holds. -/
def State.stateOwner (s : State) (place : Nat) : Option Nat :=
  if place < 65536 then s.placeEntry place
  else (s.man.entries.find? fun p => match p.2.req.step with
    | some st => decide (st.frame = (place - 65536) / 64)
    | none => false).map fun p => p.1

/-- A word that failed its check: the transfers that read or write it from f on are marked, and their requests recover; so does the
request in `own`. -/
def State.tripWord (s : State) (x : Trip) (action : Nat) (own : Option Nat) (f : Stamp) : State :=
  let q := s.markFaults fun y => y.touches x.code x.place f
  let is := (own.toList ++ q.2).eraseDups
  (q.1.tripNote x action (s.recovering is) (onlyOne is) f).recoverAll is x.code f

/-- A repair is listed until it completes. -/
def State.addRepair (s : State) (code idx : Nat) (f : Stamp) : State :=
  { s with wch := { s.wch with repairs := s.wch.repairs ++ [(code, idx, f + 64)] } }

/-- POISON: the scratch word is delivered with the poison tag. -/
def State.tripScratch (s : State) (x : Trip) (f : Stamp) : State :=
  let y := s.slot x.inst
  let s := match Tab.get y.words x.place with
    | some w => s.setSlot x.inst { y with words := Tab.set y.words x.place { w with pois := true } }
    | none => s
  s.tripNote x 6 0 none f

/-- The action of a detector. Places: a pool word by its index, a header word by 2^21 + state (0x02); line of a mask by 512 × identifier +
line (0x03); a state word by its Manifest index, a frame's node by 65536 + 64 × frame + node (0x04); a Manifest index (0x05, 0x06, 0x0E,
0x0F); a scratch word (0x08). -/
def State.tripAct (s : State) (x : Trip) (f : Stamp) : State :=
  if x.inst ≥ instances x.code then s
  else match codeKind x.code with
    | some k => if s.unitFenced k x.inst then s.tripFenced x k f else s.tripUnit x k f
    | none =>
      if x.code = 0x02 then (if x.corrected then s.tripCount x f else (s.addRepair 2 x.place f).tripWord x 3 none f)
      else if x.code = 0x03 then (if x.corrected then s.tripCount x f else (s.addRepair 3 x.place f).tripNote x 3 0 none f)
      else if x.code = 0x04 then (if x.corrected then s.tripCount x f else s.tripWord x 4 (s.stateOwner x.place) f)
      else if x.code = 0x05 then s.tripRequest x 4 f
      else if x.code = 0x06 then
        if x.corrected then (s.addRepair 6 x.place f).tripWord x 3 none f
        else (s.tripNote x 7 0 none f).blockFail x.code x.inst f
      else if x.code = 0x08 then s.tripScratch x f
      else if x.code = 0x0A then s.tripNote x 5 0 none f
      else if x.code = 0x0E then s.tripRequest x 4 f
      else if x.code = 0x0F then (if x.corrected then s.tripNote x 5 0 none f else s.tripRequest x 4 f)
      else (s.tripNote x 7 0 none f).blockFail x.code x.inst f

def State.trip (s : State) (x : Trip) (f : Stamp) : State := s.asInjected x.inj fun s => s.tripAct x f

/-- A trip precedes the stages of transfers of its own stamp: those captured from f - 11 on still drive their descriptors (R40). A trip of a
memory port is a response with MS_ERR; a failed check trips where the access is made. -/
def execDetectorTrip (t : Stamp) (code inst : BitVec 8) (place : BitVec 32) (corrected : Bool) (s : State) : Out :=
  let s := s.upTo t (kSub (codeSub code.toNat inst.toNat))
  if !s.running then .next s
  else
    let s := if code = 0x0E ∧ inst.toNat < 16 then s.unitErr else s
    .next (s.trip ⟨code.toNat, inst.toNat, place.toNat, corrected, false⟩ s.tally)

def execRepairDone (t : Stamp) (s : State) : Out :=
  let s := s.upTo t (kSub 14)
  if !s.running then .next s
  else .next { s with wch := { s.wch with repairs := s.wch.repairs.filter fun r => decide (s.tally < r.2.2) } }

/-! ### Recovery (R321, R324) -/

/-- The copy's states become the committed ones. The prompt view stays: it is not among them (log entry 15). -/
def State.restoreStates (s : State) (i : Nat) (c : SCopy) : State :=
  let p := (s.entry i).req.pview
  (s.install i c).updReq i fun r => { r with pview := p }

/-- A re-screen that recovers starts again from its initial state: none of what its graphs committed stands (07 R152). -/
def State.restartScreen (s : State) (i : Nat) (t : Stamp) : State :=
  match (s.entry i).req.build with
  | none => s
  | some b =>
    if !b.screen || b.refused then s
    else
      let h := s.handleOf i
      let z := Req.init
      let s := s.updReq i fun r => { r with
        kv := z.kv, ptext := z.ptext, atext := z.atext, acc := z.acc
        build := r.build.map fun b => { b with
          nextPos := 0, lastRep := none, act := .pass, esc := false, stopAt := none, toks := [], num := 0 } }
      let s := { s with txt := { s.txt with views := s.txt.views.filter fun v => !decide (v.handle = h) } }
      (s.startStates i).screenPrompt i t

/-- The restore ends: the current copy is installed, and replay starts behind its COMMITTED. A read that the regions refuse trips the
memory port's detector (13 R287); a page whose header differs fails the recovery (R324 PAGE). -/
def State.restoreEnd (s : State) (i : Nat) (v : Recovery) (t : Stamp) : State :=
  let e := s.entry i
  match s.ctlPage i with
  | none => s.failRecovery i 2 t
  | some r =>
    if !s.owned e.dom r.page 65536 then s.viol.memTrip 0 i t
    else if !s.pageOk r.page r.owner r.gen then s.stale.failRecovery i 2 t
    else
      let c := s.current i r.page
      let s := if e.req.flushed then s.scRange (copyAddr r.page (s.flushHdr r.page).cur) copySize r.owner r.gen else s
      let s := s.restoreStates i c
      if v.prior = .reuse then
        let s := s.updReq i fun q => { q with recov := some { v with torn := [] } }
        (s.endRecovery i t).restartScreen i t
      else
        let s := s.updReq i fun q => { q with recov := some { v with restored := some t, nextPos := c.committed } }
        if e.committed ≤ c.committed then s.endRecovery i t else s

def execRestoreEnd (t : Stamp) (idx : BitVec 16) (s : State) : Out :=
  let s := s.upTo t (kSub 14)
  let i := idx.toNat
  let e := s.entry i
  match e.req.recov with
  | none => .next s
  | some v =>
    if !s.running || !s.mem.en || decide (e.state ≠ .recover) || v.restored.isSome then .next s else .next (s.restoreEnd i v s.tally)

def execRecoveryLimit (t : Stamp) (idx : BitVec 16) (s : State) : Out :=
  let s := s.upTo t (kSub 14)
  let i := idx.toNat
  let e := s.entry i
  match e.req.recov with
  | none => .next s
  | some v =>
    if s.running && decide (e.state = .recover) && s.recoveryLate v s.tally then
      .next (s.failRecovery i 0 s.tally)
    else .next s

/-! ### Injection (R259, R319, R320, R340) -/

def State.inject (s : State) (c : Cmd) : State :=
  let w := c.word 2
  let point := fld w 0 16
  let mode := fld w 16 8
  let n := fld w 24 8
  if !s.injEn then s.complete c.id stDISABLED []
  else if point % 256 ≥ instances (point / 256) ∨ ¬ (modes (point / 256)).contains mode ∨ n = 0 then s.complete c.id stBAD_ARG []
  else if s.inj.armed.isSome then s.complete c.id stBUSY []
  else { s with inj := { s.inj with armed := some ⟨point, mode, n, max (c.word 3).toNat s.tally, 0, 0, c.id⟩ } }

def execInject (t : Stamp) (s : State) : Out := onCommand t 0x32 true s fun s c => s.inject c

/-- The stamp at which the next injection falls due. -/
def Armed.due (a : Armed) : Stamp := a.from' + 2400 * (a.applied + a.lapsed)

/-- Is the unit at the point fenced? -/
def State.pointFenced (s : State) (a : Armed) : Bool :=
  match codeKind (a.point / 256) with
  | some k => s.unitFenced k (a.point % 256)
  | none => false

/-- An element of a list chosen by a free value. -/
def pickFrom {α : Type} (l : List α) (n : Nat) : Option α := if l.isEmpty then none else l[n % l.length]?

/-- Does an entry hold tokens in the Hold? -/
def Entry.inHold (e : Entry) : Bool := e.req.chunks.any fun c => !c.toks.isEmpty

/-- The words of a store that the transfers in flight have still to read. -/
def State.readNext (s : State) (code : Nat) : List Nat :=
  s.tok.path.flatMap fun y => y.touch.filterMap fun w => if w.1 = code ∧ s.tally ≤ y.stamp + w.2.2 then some w.2.1 else none

/-- The words that an injected FLIP may meet at a point: their places, and whether the line is clean. The transition store is read by
transfers alone; where transfers in flight still read words of the state table, the frames or the Manifest, one of those is the next. -/
def State.victims (s : State) (code inst : Nat) : List (Nat × Bool) :=
  let plain := fun (l : List Nat) => l.map fun n => (n, true)
  let next := s.readNext code
  if code = 0x02 ∨ ((code = 0x04 ∨ code = 0x06) ∧ !next.isEmpty) then plain next
  else if code = 0x03 then plain ((s.tok.masks.filter fun p => p.2.used && decide (p.1 < 1024)).flatMap fun p =>
    (List.range 512).map fun l => 512 * p.1 + l)
  else if code = 0x04 then plain (s.liveEntries ++ (s.tok.frames.filter fun p => p.2.inUse).flatMap fun p =>
    p.2.nodes.map fun n => nodePlace p.1 n.1)
  else if code = 0x05 then plain (s.liveEntries.filter fun i => (s.entry i).inHold)
  else if code = 0x08 then plain ((s.slot inst).words.filterMap fun p => if p.2.valid then some p.1 else none)
  else if code = 0x0A then [(0, true)]
  else if code = 0x0F then s.mem.scLines.filterMap fun p => (s.lineOwner p.1).map fun i => (i, !p.2.dirty)
  else plain s.liveEntries

/-- The word that an injected FLIP meets is a free value (log entry 2). -/
def State.victim (s : State) (code inst n : Nat) : Option (Nat × Bool) := pickFrom (s.victims code inst) n

/-- Subsystem of the armed point's detector. -/
def State.injSub (s : State) : Nat := match s.inj.armed with
  | some a => codeSub (a.point / 256) (a.point % 256)
  | none => 14

/-- Requests for which a unit may be reading over a memory port (13 R290). -/
def State.portReads (s : State) (port : Nat) : List Nat :=
  let calls := fun (on : CallOp → Bool) => s.requestsOf (s.pil.slots.filterMap fun p =>
    if (match p.2.job with
      | some j => j.calls.any fun c => on c.op && c.started.isSome
      | none => false) then some p.1 else none)
  if port ≤ 1 then s.liveEntries
  else if port = 2 then s.requestsOf (s.pil.slots.map fun p => p.1)
  else if port = 3 then calls fun o => decide (o = .matchOp) || decide (o = .xlate) || decide (o = .feature)
  else if port ≤ 7 then calls fun o => decide (o = .tree)
  else calls fun o => decide (o = .classify)

/-- An injection takes effect at f (R319): none where its access has not occurred. The response that ERR meets where no request of the port
is shown is one of a unit at work for a request, a free value (log entry 101). -/
def State.injected (s : State) (a : Armed) (f : Stamp) : Option State :=
  let code := a.point / 256
  let inst := a.point % 256
  if code = 0x0E then
    let p := s.port inst
    if !p.out.isEmpty then some (s.setPort inst { p with errNext := true })
    else match pickFrom (s.portReads inst) (Config.injVictim s.fresh) with
      | none => none
      | some i =>
        some (s.unitErr.draw.trip ⟨code, inst, i, false, true⟩ f)
  else if (codeKind code).isSome ∨ a.mode = 1 then some (s.trip ⟨code, inst, 0, false, true⟩ f)
  else match s.victim code inst (Config.injVictim s.fresh) with
    | none => none
    | some v =>
      let corrected := if code = 0x0F then v.2 else decide (a.mode = 2)
      some (s.draw.trip ⟨code, inst, v.1, corrected, true⟩ f)

/-- The last injection has applied or lapsed: INJECT completes. -/
def State.injectEnd (s : State) (a : Armed) : State :=
  if a.applied + a.lapsed ≥ a.count then
    ({ s with inj := { s.inj with armed := none } } : State).complete a.cmd stOK [pack 64 [(0, a.applied), (8, a.lapsed)]]
  else { s with inj := { s.inj with armed := some a } }

/-- An injection applied: the record, the counters. -/
def State.logInject (s : State) (a : Armed) (f : Stamp) : State :=
  ((({ s with inj := { s.inj with count := (s.inj.count + 1) % 2 ^ 32 } } : State).count 14 0x15 1).logRec 0x10 14 0 a.mode 0 true f
    (BitVec.ofNat 64 a.point) 0 0).injectEnd { a with applied := a.applied + 1 }

def execInjection (t : Stamp) (s : State) : Out :=
  let s := s.upTo t (kSub s.injSub)
  match s.inj.armed with
  | none => .next s
  | some a =>
    if !s.running || decide (s.tally < a.due) || s.pointFenced a then .next s
    else match s.injected a s.tally with
      | some s' => .next (s'.logInject a s.tally)
      | none => .next s

def execInjectionLapse (t : Stamp) (s : State) : Out :=
  let s := s.upTo t (kSub 14)
  match s.inj.armed with
  | none => .next s
  | some a =>
    if s.running && decide (a.due ≤ s.tally) && (s.pointFenced a || (decide (a.mode ≠ 1) && decide (a.due + 2400000 ≤ s.tally))) then
      .next ((s.count 14 0x16 1).injectEnd { a with lapsed := a.lapsed + 1 })
    else .next s

/-- A write of VY_INJ_DISARM (R340). -/
def State.disarm (s : State) (data : Word) : State :=
  match s.inj.armed with
  | some a => if bitAt data 0 then ({ s with inj := { s.inj with armed := none } } : State).complete a.cmd stCANCELLED [] else s
  | none => s

def execInjDisarm (t : Stamp) (data : Word) (s : State) : Out := onWrite t s fun s => s.disarm data

end Sys2Proof.Machine
end

