-- ==== Sys2Proof/Machine/Logbook.lean ====
section
/-! DEFINITION. Logbook.lean: the Logbook's device, mount, writes, erases and reads (14 R328-R338; 11 R260): COALESCE_WINDOW_END,
LOG_RECORD_WRITE, SECTOR_ERASE, LOG_MOUNT, LOG_MOUNTED, POWER_FAIL_WARNING, LOG_READ, LOG_READ_DONE, LOG_ERASE, LOG_ERASE_DONE,
WRITE_TIME_EXCEEDED. -/

namespace Sys2Proof.Machine

/-- VY_ID (16 R360). -/
def vyId : Word := 0x00007C1100B00502
/-- VY_CAP0-VY_CAP7 (16 R362). -/
def vyCap (n : Nat) : Word :=
  ([0x0010629098A09418, 0x2102004002010000, 0x8080001080100000, 0x0208000100100000, 0x003E840800308000, 0x1080007F40032000,
    0x000007FE05100200, 0x00410F8020082018][n]?).getD 0

/-! ### Coalescing windows (R332) -/

/-- Windows that end by t close, each at its own end. -/
def State.closeDuePlaces (s : State) (t : Stamp) : State :=
  let due := fun (r : LRec) => decide (r.first + 2400000 ≤ t)
  (s.wch.coal.filter due).foldl (fun s r => s.stage r (r.first + 2400000))
    { s with wch := { s.wch with coal := s.wch.coal.filter fun r => !due r } }

def execCoalesceWindowEnd (t : Stamp) (s : State) : Out :=
  let s := s.upTo t (kSub 14)
  if !s.watchRuns then .next s else .next (s.closeDuePlaces s.tally)

/-! ### The device (R328, R329, R337) -/

/-- Slots of a 64 KiB sector. -/
def sectorSlots : Nat := 1024

def Logbook.sectors (l : Logbook) : Nat := max 1 (l.cap / sectorSlots)
def Logbook.sectorOf (n : Nat) : Nat := n / sectorSlots
def Logbook.nextSlot (l : Logbook) (n : Nat) : Nat := if n + 1 ≥ l.cap then 0 else n + 1

/-- The slot of the record with the lowest SEQ. -/
def oldest : Tab (Option LRec) → Option (Nat × Nat)
  | [] => none
  | (k, some r) :: t =>
    match oldest t with
    | some o => if o.2 < r.seq then some o else some (k, r.seq)
    | none => some (k, r.seq)
  | (_, none) :: t => oldest t

/-- The slot of the record with the highest SEQ. -/
def newest : Tab (Option LRec) → Option (Nat × Nat)
  | [] => none
  | (k, some r) :: t =>
    match newest t with
    | some o => if r.seq < o.2 then some o else some (k, r.seq)
    | none => some (k, r.seq)
  | (_, none) :: t => newest t

def Logbook.oldestSlot (l : Logbook) : Option Nat := (oldest l.dev).map fun o => o.1

/-- Does the sector hold anything that is not erased? -/
def Logbook.used (l : Logbook) (sec : Nat) : Bool := l.dev.any fun p => decide (Logbook.sectorOf p.1 = sec)
/-- Does the sector hold a record? With WRAP = 0 it is neither erased nor overwritten (R337). -/
def Logbook.holdsRec (l : Logbook) (sec : Nat) : Bool := l.dev.any fun p => decide (Logbook.sectorOf p.1 = sec) && p.2.isSome

/-- May the head's slot be written now? On NOR not in a sector whose erase is still to be made; while all else is erased, what stands
behind the ERASED record may (R336). -/
def Logbook.writable (l : Logbook) : Bool :=
  let here := Logbook.sectorOf l.head
  if l.nor then (Tab.get l.dev l.head).isNone && (match l.op with
    | .sector n => decide (n ≠ here)
    | .all slot => decide (here = Logbook.sectorOf slot) || decide (l.head % sectorSlots ≠ 0) || !l.used here
    | .idle => true)
  else match l.op with
    | .all slot => decide (l.head ≠ slot)
    | _ => l.wrap || ((Tab.get l.dev l.head).isNone && decide (l.oldestSlot ≠ some (l.nextSlot l.head)))

/-- Writing stops for good: WRAP = 0 and what lies ahead may not be erased or overwritten (R337). -/
def Logbook.atEnd (l : Logbook) : Bool := !l.wrap && !l.writable && decide (l.op = .idle)

/-- The erase that is due on NOR: of the sector after the head's, or of the head's own where the head stands at its start and it is not
erased yet; with WRAP = 0 none of a sector that holds a record (R329, R337). -/
def Logbook.eraseAhead (l : Logbook) : NvmOp :=
  let here := Logbook.sectorOf l.head
  let sec := if l.head % sectorSlots = 0 ∧ l.used here then here else (here + 1) % l.sectors
  if l.nor ∧ l.used sec ∧ (l.wrap ∨ l.holdsRec sec = false) then .sector sec else .idle

/-- Has the head reached the end of its sector on NOR, with records ahead that WRAP = 0 keeps (R337)? It then enters no sector. -/
def Logbook.stopped (l : Logbook) : Bool :=
  l.nor && !l.wrap && decide (l.head % sectorSlots = 0) && l.holdsRec (Logbook.sectorOf l.head)

/-- The CHECKPOINT record of a slot: it carries the SEQ of the last record before it (log entry 23). -/
def State.checkpoint (s : State) (slot : Nat) (t : Stamp) : LRec :=
  { s.newRec 0x11 (14 * 256) 0 0 false t t (BitVec.ofNat 64 slot) 0 0 with
    seq := (s.log.nextSeq + 2 ^ 32 - 1) % 2 ^ 32, boot := s.log.boot }

/-- The erase that is due begins, unless one is under way; in the Logbook step of a SOFT reset it waits for the next mount (15 R350). -/
def State.startDue (s : State) : State :=
  if s.log.op ≠ .idle ∨ s.clk.phase = .softLog then s else { s with log := { s.log with op := s.log.eraseAhead } }

/-- The head has entered a sector: a checkpoint, and the erase ahead. -/
def State.enterSector (s : State) : State :=
  let l := s.log
  let c := s.checkpoint l.head s.tally
  State.startDue { s with log := { l with ckpts := (l.ckpts ++ [c]).drop (l.ckpts.length - 2047) } }

/-- One record goes to the head's slot. -/
def State.writeRec (s : State) (r : LRec) : State :=
  let l := s.log
  let s := ({ s with log := { l with dev := Tab.set l.dev l.head (some r), head := l.nextSlot l.head } } : State).count 14 0x1A 1
  if (Logbook.sectorOf s.log.head ≠ Logbook.sectorOf l.head ∨ s.log.head = 0) ∧ s.log.stopped = false then s.enterSector else s

/-- Is the record to be written next BLOCK_FAIL? -/
def State.failFirst (s : State) : Bool := match s.wch.staging with
  | r :: _ => decide (r.typ = 0x0B)
  | [] => false

/-- The cases in which the Logbook may drive the NVM port (12 R280): ALIVE is high, BLOCK_FAIL or the records of a power-fail warning
are written, an ARRAY reset, the Logbook step of a SOFT reset. -/
def State.nvmCase (s : State) : Bool :=
  s.aliveHigh || decide (s.clk.phase = .arrayReset) || decide (s.clk.phase = .softLog) || s.log.pfw ||
    (decide (s.clk.phase = .failing) && s.failFirst)

/-- Does the Logbook reach its device (R280, R284: with BS_MODE high the boundary cells drive the NVM pins)? -/
def State.nvmRuns (s : State) : Bool := s.watchRuns && s.nvmCase && s.log.en && !s.clk.bsMode

/-- Is an erase under way suspended: for the records of a power-fail warning (R334), for BLOCK_FAIL (R318), or in the Logbook step of a
SOFT reset (15 R350)? -/
def State.eraseWaits (s : State) : Bool :=
  s.log.pfw || decide (s.clk.phase = .softLog) || (decide (s.clk.phase = .failing) && s.failFirst)

/-- May the Logbook write (R328, R334, R336, R337)? -/
def State.logWrites (s : State) : Bool :=
  s.nvmRuns && s.log.mounted && !s.log.failed && !s.log.atFull && (!s.log.erasing || s.eraseWaits)

/-- FULL, once, as soon as writing has to stop (R337). -/
def State.checkFull (s : State) (t : Stamp) : State :=
  if s.log.mounted && !s.log.full && s.log.atEnd then
    ({ s with log := { s.log with full := true } } : State).note 0xA7 0 0 t [BitVec.ofNat 64 (s.log.lost % 2 ^ 32)]
  else s

/-- The Logbook leaves its device: reads and an erase that wait for it end with DISABLED (log entry 59). -/
def State.logStop (s : State) : State :=
  let s := s.log.reads.foldl (fun s x => s.complete x.cmd stDISABLED [])
    (s.completeOpt s.log.eraseCmd stDISABLED [])
  { s with log := { s.log with reads := [], eraseCmd := none, erasing := false, op := .idle } }

/-- LOG_FAIL: the Logbook stops (R328). -/
def State.logFail (s : State) (reason : Nat) (t : Stamp) : State :=
  (({ s with log := { s.log with failed := true, mounting := false, mounted := false, pfw := false } } : State).note 0xA8 0 0 t
    [BitVec.ofNat 64 reason]).logStop

/-- A device write of up to n staged records, within one page (R328, R329). -/
def State.writeStaged (s : State) (t : Stamp) : Nat → State
  | 0 => s
  | n + 1 =>
    match s.wch.staging with
    | [] => s
    | r :: q =>
      if s.log.atFull || !s.log.writable then s
      else
        let s' := (({ s with wch := { s.wch with staging := q } } : State).writeRec r).checkFull t
        if s'.log.head % 4 = 0 ∨ !s.log.nor then s' else s'.writeStaged t n

/-- A device write ends, or reports an error. -/
def execLogRecordWrite (e : DeviceEnd) (s : State) : Out :=
  let s := s.upTo e.t (kSub 14)
  if !s.logWrites then .next s
  else if e.err then .next (if s.wch.staging.isEmpty then s else s.logFail 1 s.tally)
  else
    let s := s.writeStaged s.tally 4
    .next { s with log := { s.log with pfw := s.log.pfw && !s.wch.staging.isEmpty } }

/-- The erase of a sector ends, and one that fell due meanwhile begins. In the Logbook step it is run to its end only if the head stands at that sector (15 R350). -/
def execSectorErase (e : DeviceEnd) (s : State) : Out :=
  let s := s.upTo e.t (kSub 14)
  match s.log.op with
  | .sector n =>
    if !s.nvmRuns || s.log.failed || (s.eraseWaits && s.log.writable) then .next s
    else if e.err then .next (s.logFail 1 s.tally)
    else .next (State.startDue { s with log := { s.log with
      op := .idle, dev := s.log.dev.filter fun p => !decide (Logbook.sectorOf p.1 = n) } })
  | _ => .next s

/-! ### Mount (R329) -/

/-- Does slot k lie in [a, b), counted onward from a? -/
def Logbook.between (l : Logbook) (a b k : Nat) : Bool := decide ((k + l.cap - a) % l.cap < (b + l.cap - a) % l.cap)

/-- What an erase leaves: the ERASED record and what was written behind it, and both checkpoint rings rewritten. -/
def Logbook.erased (l : Logbook) (slot : Nat) (c : LRec) : Logbook :=
  { l with
    dev := l.dev.filter fun p => l.between slot l.head p.1, ckpts := [c, c], op := .idle, erasing := false, full := false
    eraseCmd := none }

/-- An interrupted write leaves nothing, a torn slot or the record, a free value (log entry 2). -/
def State.tearWrite (s : State) : State :=
  match s.wch.staging with
  | r :: _ =>
    if s.logWrites && s.log.writable then
      let k := Config.tornWrite s.fresh
      let s := s.draw
      if k = 0 then s
      else { s with log := { s.log with
        dev := Tab.set s.log.dev s.log.head (if k = 1 then none else some r), head := s.log.nextSlot s.log.head } }
    else s
  | [] => s

/-- Power loss or reset in the middle of a device operation (R334, R336; 12 R280). An interrupted erase leaves the ERASED record, from
which the next mount continues (log entry 23). -/
def State.deviceCut (s : State) : State :=
  let s := s.tearWrite
  match s.log.op with
  | .all slot => { s with log := s.log.erased slot (s.checkpoint slot s.tally) }
  | _ => { s with log := { s.log with op := .idle } }

/-- A write of VY_LOG_CTL (R338): KIND only while EN = 0; a rise of EN mounts, and with EN = 0 the device is left alone: a fall cuts off
what is under way. A change of WRAP acts on what lies ahead of the head (R337): one that lets a stopped head go on has it enter the sector. -/
def State.writeLogCtl (s : State) (data : Word) : State :=
  s.gated [(s.log.en, bitAt data 0)] fun s =>
    let now := bitAt data 0
    let s := if s.log.en && !now then s.deviceCut.logStop else s
    let l := s.log
    let l := { l with
      en := now, nor := if l.en then l.nor else !bitAt data 1, wrap := bitAt data 2, verd := bitAt data 3, ce := bitAt data 4
      mounting := now && (l.mounting || !l.en), mounted := now && l.mounted, failed := l.failed && (l.en || !now)
      pfw := now && l.pfw }
    let s' : State := { s with log := l }
    let s' := if !l.mounted then s' else if s.log.stopped && l.wrap then s'.enterSector else s'.startDue
    s'.checkFull s.tally

def execLogMount (t : Stamp) (data : Word) (s : State) : Out := onWrite t s fun s => s.writeLogCtl data

/-- The forward scan from a slot: head, torn slots passed, highest SEQ and BOOT found. -/
def scanLog (l : Logbook) : Nat → Nat → Nat → Option Nat → Nat → Nat × Nat × Option Nat × Nat
  | 0, k, torn, sq, bt => (k, torn, sq, bt)
  | n + 1, k, torn, sq, bt =>
    match Tab.get l.dev k with
    | none => (k, torn, sq, bt)
    | some none => scanLog l n (l.nextSlot k) (torn + 1) sq bt
    | some (some r) => scanLog l n (l.nextSlot k) torn (some (max r.seq (sq.getD 0))) (max r.boot bt)

/-- Staged records take the SEQs after the highest found, in order, and the new BOOT (log entry 23). -/
def renumber : Nat → Nat → List LRec → List LRec
  | _, _, [] => []
  | sq, bt, r :: q => { r with seq := sq, boot := bt } :: renumber ((sq + 1) % 2 ^ 32) bt q

/-- Where the mount puts the head: the first empty slot found. DESIGN CHOICE: R329 does not say where on a device without one; there it is
the slot behind the record of the highest SEQ (log entry 100). -/
def Logbook.mountHead (l : Logbook) (found : Nat) : Nat :=
  if l.dev.length < l.cap then found
  else match newest l.dev with
    | some o => l.nextSlot o.1
    | none => found

/-- The mount ends: head, SEQ, BOOT, an erase that fell due before, the BOOT record, LOG_MOUNTED. KIND then reads 111 (15 R346). -/
def State.mountEnd (s : State) (bytes : Nat) (t : Stamp) : State :=
  let l := { s.log with cap := (bytes - 131072) / 64 }
  let c := l.ckpts.getLast?
  let x := scanLog l l.dev.length ((c.map fun r => r.d0.toNat).getD 0) 0 (c.map fun r => r.seq) ((c.map fun r => r.boot).getD 0)
  let sq := match x.2.2.1 with
    | some n => (n + 1) % 2 ^ 32
    | none => 0
  let bt := (x.2.2.2 + 1) % 65536
  let s := { s with
    log := { l with
      mounting := false, mounted := true, torn := x.2.1, head := l.mountHead x.1, nextSeq := (sq + s.wch.staging.length) % 2 ^ 32, boot := bt }
    wch := { s.wch with staging := renumber sq bt s.wch.staging } }
  let s := State.startDue { s with log := { s.log with op := .idle } }
  let s := s.logRec 0x0D 0 0 s.clk.kind 0 false t vyId (vyCap 0) (BitVec.ofNat 64 x.2.1)
  let s := { s with clk := { s.clk with kind := 7 } }
  (s.note 0xA6 0 0 t [pack 64 [(0, s.log.cap), (32, x.2.1)], BitVec.ofNat 64 s.log.nextSeq]).checkFull t

def execLogMounted (t : Stamp) (ok : Bool) (bytes : BitVec 32) (s : State) : Out :=
  let s := s.upTo t (kSub 14)
  if !s.nvmRuns || !s.log.mounting then .next s
  else if ok ∧ 67108864 ≤ bytes.toNat ∧ bytes.toNat ≤ 2147483648 then .next (s.mountEnd bytes.toNat s.tally)
  else .next (s.logFail 0 s.tally)

/-- A program or erase exceeds the profile's write time (R328). -/
def execWriteTimeExceeded (t : Stamp) (s : State) : Out :=
  let s := s.upTo t (kSub 14)
  let busy := decide (s.log.op ≠ .idle) || (s.logWrites && !s.wch.staging.isEmpty)
  if s.nvmRuns && s.log.mounted && !s.log.failed && busy then .next (s.logFail 2 s.tally) else .next s

/-! ### Power-fail warning (R334; 15 R357) -/

/-- The level of PFW_N. A fall is kept in PFWSEEN and counted while the block has its logic supply (12 R286). -/
def State.pfwPin (s : State) (low : Bool) : State :=
  let fell := low && !s.clk.pfwLow && s.clk.pgLogic
  let s := { s with clk := { s.clk with pfwLow := low, pfwSeen := s.clk.pfwSeen || fell } }
  if fell then s.count 0 0x14 1 else s

/-- Coalescing closes, and the POWER_FAIL record stands ahead of what is staged. -/
def State.powerFail (s : State) (t : Stamp) : State :=
  let n := s.wch.coal.length + s.wch.staging.length
  let s := s.closePlaces (fun _ => true) t
  let r := s.newRec 0x0C 0 0 0 false t t (BitVec.ofNat 64 n) 0 0
  if s.log.atFull then s.loseRec r t
  else if s.log.failed then s.logNotice r t
  else
    let q := s.withSeq r
    let s := ((q.1.putStaging (q.2 :: q.1.wch.staging) t).logNotice q.2 t).count 14 0x17 1
    { s with log := { s.log with pfw := s.log.en && s.log.mounted } }

/-- PFW_N falls, or rises again. Where the Watch unit does not run only the pin's level is seen. -/
def execPowerFailWarning (e : PfwEdge) (s : State) : Out :=
  let s := s.upTo e.t (kSub 14)
  if s.clk.absent || e.low == s.clk.pfwLow then .next s
  else
    let s := s.pfwPin e.low
    if e.low && s.watchRuns then .next (s.powerFail s.tally) else .next s

/-! ### LOG_READ (R335) -/

def State.logRead (s : State) (c : Cmd) : State :=
  let a := fld (c.word 2) 0 40
  let first := fld (c.word 3) 0 32
  let n := fld (c.word 3) 32 16
  if n = 0 ∨ s.owned 0 a (64 * n) = false then s.complete c.id stBAD_ARG []
  else if s.log.op ≠ .idle then s.complete c.id stBUSY []
  else if !s.log.mounted || s.log.failed then s.complete c.id stDISABLED []
  else { s with log := { s.log with reads := s.log.reads ++ [⟨c.id, a, first, n⟩] } }

def execLogRead (t : Stamp) (s : State) : Out := onCommand t 0x34 true s fun s c => s.logRead c

/-- Is a SEQ in [first, first + n)? -/
def seqIn (first n q : Nat) : Bool := decide ((q + 2 ^ 32 - first) % 2 ^ 32 < n)

/-- The records of a range, in SEQ order. -/
def insRec (first : Nat) (r : LRec) : List LRec → List LRec
  | [] => [r]
  | q :: t => if (r.seq + 2 ^ 32 - first) % 2 ^ 32 < (q.seq + 2 ^ 32 - first) % 2 ^ 32 then r :: q :: t else q :: insRec first r t

/-- Torn slots of a range: those behind a record of the range, in slot order. -/
def tornIn (first n : Nat) : Bool → Tab (Option LRec) → Nat
  | _, [] => 0
  | on, (_, none) :: t => nb on + tornIn first n on t
  | _, (_, some r) :: t => tornIn first n (seqIn first n r.seq) t

/-- The copy of a LOG_READ is made and the command completes. One that the regions refuse is discarded, trips the port's detector and writes
no record (13 R287). -/
def State.readDone (s : State) (x : LRead) : State :=
  let rs := (s.log.dev.filterMap fun p => p.2).filter fun r => seqIn x.first x.count r.seq
  let rs := rs.foldl (fun l r => insRec x.first r l) []
  let bs := rs.flatMap fun r => r.words.flatMap fun w => leBytes 8 w.toNat
  let ok := s.ownedWr 0 x.addr bs.length
  let s := if ok then s.wr x.addr bs else s.blockTrip 0 s.tally
  let s := { s with log := { s.log with reads := s.log.reads.erase x } }
  s.complete x.cmd stOK [pack 64 [(0, if ok then rs.length % 65536 else 0), (16, tornIn x.first x.count false s.log.dev % 65536)]]

def execLogReadDone (t : Stamp) (s : State) : Out :=
  let s := s.upTo t (kSub 14)
  match s.log.reads with
  | [] => .next s
  | x :: _ => if !s.running || !s.nvmRuns || !s.log.mounted || !s.mem.en then .next s else .next (s.readDone x)

/-! ### LOG_ERASE (R260, R336) -/

/-- SEQs of the records on the device: first and last. -/
def State.erasedRange (s : State) : State × Word :=
  match oldest s.log.dev with
  | some o => (s, pack 64 [(0, o.2), (32, (s.log.dev.filterMap fun p => p.2).foldl (fun a r => max a r.seq) 0)])
  | none => (s.draw, Config.noneErased s.fresh)

/-- The erase starts: its ERASED record goes to the first slot of the 64 KiB after the head's, and the head stands behind it (R336). A
head that has stopped at the end of its sector has not left it (R337). -/
def State.startErase (s : State) (cmd : Nat) (t : Stamp) : State :=
  let l := s.log
  let sec := if l.stopped then Logbook.sectorOf l.head else (Logbook.sectorOf l.head + 1) % l.sectors
  let slot := sec * sectorSlots
  let e := s.erasedRange
  let q := e.1.withSeq (e.1.newRec 0x0F (14 * 256) 0 0 false t t e.2 ((s.lnd.nonce.getD 0).setWidth 64) (BitVec.ofNat 64 s.lnd.armAt))
  let s := q.1.logNotice q.2 t
  let dev := s.log.dev.filter fun p => !(s.log.nor && decide (Logbook.sectorOf p.1 = sec))
  ({ s with log := { s.log with
    erasing := true, eraseCmd := some cmd, op := .all slot, dev := Tab.set dev slot (some q.2), head := l.nextSlot slot } } :
    State).count 14 0x1A 1

def State.logErase (s : State) (c : Cmd) : State :=
  if s.eraseArmed s.tally && decide (s.lnd.nonce = some (BitVec.ofNat 16 (fld (c.word 2) 0 16))) then
    if s.log.erasing then s.complete c.id stBUSY []
    else if !s.log.mounted || s.log.failed then s.complete c.id stDISABLED []
    else s.startErase c.id s.tally
  else ({ s with lnd := { s.lnd with nonce := none } } : State).complete c.id stSEQUENCE []

def execLogErase (t : Stamp) (s : State) : Out := onCommand t 0x36 true s fun s c => s.logErase c

/-- The erase of the whole Logbook ends. One that is suspended is resumed only where the records to be written reach a sector whose erase
has not completed (15 R350). -/
def execLogEraseDone (e : DeviceEnd) (s : State) : Out :=
  let s := s.upTo e.t (kSub 14)
  match s.log.op with
  | .all slot =>
    if !s.nvmRuns || s.log.failed || (s.eraseWaits && s.log.writable) then .next s
    else if e.err then .next (s.logFail 1 s.tally)
    else .next (({ s with log := s.log.erased slot (s.checkpoint slot s.tally) } : State).completeOpt s.log.eraseCmd stOK [])
  | _ => .next s

end Sys2Proof.Machine
end

