-- ==== Sys2Proof/Machine/Resets.lean ====
section
/-! DEFINITION. Resets.lean: clocks, the tally, resets, power and test access (15 R341-R353; 12 R281-R286; 14 R318): BLOCK_RESET,
POWER_UP, POWER_DOWN, ABSENT, ARRAY_RESET, PG_ARRAY_RISE, PIN_RESET, RST_N_RELEASE, PLL_LOCK, PLL_LOCK_LOSS, GT_STROBE, BIST_DONE,
SOFT_RESET, SOFT_RESET_END, WRAPPER_INSTRUCTION_UPDATE, BS_MODE. -/

namespace Sys2Proof.Machine

/-! ### What a reset keeps (R312, R347) -/

/-- Is the block powered and present? -/
def State.powered (s : State) : Bool := s.clk.pgLogic && !s.clk.absent

/-- The tally takes a value: at the start of its count, and at alignment (R343). No periodic snapshot of a skipped tally falls due
(16 R370). -/
def State.jump (s : State) (t : Stamp) : State :=
  { s with tally := t, lag := [], cnt := { s.cnt.flush 0 with autoAt := t - 1, issued := [] } }

/-- The region table after a reset: no region valid; a POWER reset alone sets the generations to 1 (13 R288). -/
def rgnsAfter (power : Bool) (l : Tab Region) : Tab Region :=
  if power then [] else l.map fun p => (p.1, { Region.none with gen := p.2.gen })

/-- Registers at their reset values and every valid bit cleared. Node memory, the NVM device, the clock registers, the pins' inputs,
the waiting commands and the counter of the free values stay. -/
def State.restart (s : State) (power : Bool) : State :=
  { State.reset with
    tally := s.tally, pending := s.pending, fresh := s.fresh, clk := s.clk
    mem := { MemSide.init with bytes := s.mem.bytes, pois := s.mem.pois, rgns := rgnsAfter power s.mem.rgns }
    log := { Logbook.init with dev := s.log.dev, ckpts := s.log.ckpts } }

/-- Fences and spare mappings of `o` (R347). -/
def State.withFences (s o : State) : State :=
  { s with
    tok := { s.tok with
      fenced := o.tok.fenced, spareFor := o.tok.spareFor, spareUsed := o.tok.spareUsed, spareBad := o.tok.spareBad }
    txt := { s.txt with fenced := o.txt.fenced }
    cls := { s.cls with fenced := o.cls.fenced, sp32 := o.cls.sp32, sp33 := o.cls.sp33 }
    tre := { s.tre with fenced := o.tre.fenced, spare := o.tre.spare, fst := o.tre.fst }
    pil := { s.pil with fenced := o.pil.fenced, sp16 := o.pil.sp16, sp17 := o.pil.sp17 }
    fry := { s.fry with fenced := o.fry.fenced, spareFor := o.fry.spareFor, spareUsed := o.fry.spareUsed } }

/-- The lowest kind since the Logbook was last mounted (R346). -/
def State.noteKind (s : State) (k : Nat) : State := { s with clk := { s.clk with kind := min s.clk.kind k } }

/-- The clock registers at their reset values, as a reset that realigns leaves them. -/
def Clk.realign (c : Clk) : Clk :=
  { c with
    talign := false, gterr := false, gtlast := 0, gtD := 0, gtMis := 0, badStb := 0, bistDone := false, fatal := false, failed := 0
    pfwSeen := false, arrayLost := false, bistAfter := false }

/-- A POWER, BLOCK or PIN reset begins: the tally counts from 0. -/
def State.enterReset (s : State) (power : Bool) (kind : Nat) (p : Phase) : State :=
  let s := (s.restart power).noteKind kind
  ({ s with clk := { s.clk.realign with phase := p } } : State).jump 0

/-! ### BLOCK_RESET (14 R318) -/

/-- Is the BLOCK_FAIL record still to be written? -/
def State.failPending (s : State) : Bool := s.logWrites && s.failFirst

def execBlockReset (t : Stamp) (s : State) : Out :=
  let s := s.upTo t (kSub 14)
  if s.clk.phase ≠ .failing ∨ s.failPending then .next s else .next (s.deviceCut.enterReset false 1 .blockReset)

/-! ### Power, presence and RST_N (R346-R349; 12 R281, R285) -/

/-- What follows where RST_N is high in a reset (R346, R351): BIST, once the PLL is locked; with PG_ARRAY low the state of an ARRAY reset,
which ends in a SOFT reset with BIST (12 R281). -/
def Clk.toBist (c : Clk) : Clk :=
  if c.phase ≠ .reset ∨ c.rstN = false then c
  else if !c.pgArray then { c with phase := .arrayReset, kind := min c.kind 2, arrayLost := true }
  else if c.lock then { c with phase := .bist } else c

/-- The test access as a block that has just been powered holds it: the wrapper transparent, every cell 0. DESIGN CHOICE: the manual gives
the cells no value there (log entry 87). -/
def Clk.noTest (c : Clk) : Clk :=
  { c with
    wrapper := .bypass, wcells := [], winputs := [], wser := [], wshift := false, mbist := false, mbistBad := 0
    bsCells := 0, bsShift := 0 }

/-- PG_LOGIC rises. RST_N, PG_ARRAY and PFW_N have been observed while the block was unpowered (12 R286). -/
def execPowerUp (t : Stamp) (s : State) : Out :=
  let s := s.upTo t 0
  if s.clk.absent || s.clk.pgLogic then .next s
  else
    let s := s.enterReset true 0 .reset
    .next { s with clk := ({ s.clk with pgLogic := true, lock := false } : Clk).noTest.toBist }

/-- Power goes: every on-chip state is lost, and a device write in progress is cut off (R334). -/
def State.powerOff (s : State) : State :=
  let s := (s.deviceCut).enterReset true 0 .reset
  { s with clk := { s.clk with pgLogic := false, lock := false } }

def execPowerDown (t : Stamp) (s : State) : Out :=
  let s := s.upTo t 0
  if s.clk.absent || !s.clk.pgLogic then .next s else .next s.powerOff

/-- The strap (12 R285): an absent block is idle, and comes back through a reset. -/
def execAbsent (t : Stamp) (strap : Bool) (s : State) : Out :=
  let s := s.upTo t 0
  if strap = s.clk.absent then .next s
  else
    let s := if strap then s.deviceCut.enterReset false 3 .reset else s
    .next { s with clk := { s.clk with absent := strap } }

/-- The enables of R345 but the Logbook's are cleared. -/
def State.disableAll (s : State) : State :=
  { s with
    lag := []
    tok := { s.tok with en := false }, ramp := { s.ramp with en := false }, txt := { s.txt with en := false, pinEn := false }
    cls := { s.cls with en := false }, tre := { s.tre with en := false, fen := false }, dsp := { s.dsp with en := false }
    lnd := { s.lnd with en := false }, man := { s.man with en := false }, mem := { s.mem with en := false }
    fry := { s.fry with en := false } }

/-- Every valid bit is cleared but those of the coalescing places and of staging; registers stay, and the generations of regions
(R312, R349). DESIGN CHOICE: those of mask slots and tree frames start anew (log entry 85). -/
def State.dropContents (s : State) : State :=
  { s with
    pins := Pins.idle
    lnd := { s.lnd with cq := [], cqSkip := false, nq := [], nqMid := false, nqFlush := none, wait := [], opens := [], nonce := none }
    man := { s.man with entries := [], fresh := 0, freed := [] }
    doms := s.doms.map fun p => (p.1, { p.2 with active := none, ep0 := none, ep1 := none, sems := [] })
    dsp := { Dispatcher.init with saveBase := s.dsp.saveBase, semSel := s.dsp.semSel, en := s.dsp.en }
    pil := { s.pil with slots := [], swapGo := false }
    tok := { s.tok with
      hdrs := [], pool := [], masks := [], states := [], frames := [], lastCap := [], readyAt := [], path := [], swapGo := false }
    txt := { s.txt with vslots := TextTier.init.vslots, views := [], viewGen := [] }
    cls := { s.cls with cache := [], swapGo := false, goldGo := false }
    tre := { s.tre with store := [], plan := [], swapGo := false, goldGo := false }
    ramp := { s.ramp with outq := [], voq := [] }
    mem := { s.mem with scLines := [], ports := [], delayed := [], d0 := 0, rgns := rgnsAfter false s.mem.rgns }
    fry := { s.fry with
      grp := s.fry.grp.map fun x => { Group.init with peer := x.peer, lost := x.lost, txQ := x.txQ, rxQ := x.rxQ }
      offers := [], sent := [], looped := [], swapGo := false }
    cnt := { s.cnt with snaps := [] }
    wch := { s.wch with swaps := [], repairs := [] }
    log := { s.log with eraseCmd := none, reads := [] }
    inj := { s.inj with armed := none } }

/-- Does the fall of PG_ARRAY perform an ARRAY reset (R349)? In service and in a reset with RST_N high it does; a block failure keeps
its own reset (14 R318). -/
def State.arrayFalls (s : State) : Bool :=
  s.clk.rstN && (decide (s.clk.phase = .service) || decide (s.clk.phase = .bist) || decide (s.clk.phase = .softLog) ||
    decide (s.clk.phase = .reset))

/-- PG_ARRAY falls. -/
def execArrayReset (t : Stamp) (s : State) : Out :=
  let s := s.upTo t 0
  if s.clk.absent || !s.clk.pgArray then .next s
  else if !s.powered || !s.arrayFalls then .next { s with clk := { s.clk with pgArray := false } }
  else
    let s := (s.dropContents.disableAll).noteKind 2
    .next { s with clk := { s.clk with phase := .arrayReset, pgArray := false, arrayLost := true } }

/-- A SOFT reset begins (R350): the boundary goes idle, coalescing closes, the Logbook step follows. -/
def State.startSoft (s : State) : State :=
  let s := (s.closePlaces (fun _ => true) s.tally).dropContents.noteKind 4
  { s with clk := { s.clk with phase := .softLog, bistAfter := s.clk.arrayLost } }

def execPgArrayRise (t : Stamp) (s : State) : Out :=
  let s := s.upTo t 0
  if s.clk.absent || s.clk.pgArray then .next s
  else
    let s := { s with clk := { s.clk with pgArray := true } }
    if s.powered && decide (s.clk.phase = .arrayReset) then .next s.startSoft else .next s

/-- A write of VY_RST_CTL (R350): SOFT with the key starts a SOFT reset; SOFT with another key is ignored. -/
def State.writeRst (s : State) (data : Word) : State :=
  if !bitAt data 8 then s else if fld data 0 8 = 0xA5 then s.startSoft else s.ignored 0

/-- The write enters reset, so its response never leaves the block. -/
def execSoftReset (t : Stamp) (data : Word) (s : State) : Out :=
  let s := s.upTo t 0
  if !s.alive || !s.portFree then .next s
  else
    let s' := s.writeRst data
    if s'.clk.phase = .softLog then .next s' else .next (s'.respond 0)

/-- Every staged record is written, or the Logbook writes none: it is off, not mounted, stopped or full. Where only the PLL's lock or the
NVM pins are missing, the records wait for them. -/
def State.softWritten (s : State) : Bool :=
  s.wch.staging.isEmpty || !s.log.en || !s.log.mounted || s.log.failed || s.log.atFull || s.log.atEnd

/-- The Logbook step ends. An erase of the whole Logbook that it suspended ends here as one that loses power does (log entry 64). -/
def execSoftResetEnd (t : Stamp) (s : State) : Out :=
  let s := s.upTo t (kSub 14)
  if s.clk.phase ≠ .softLog ∨ s.watchRuns = false ∨ s.softWritten = false then .next s
  else
    let s := match s.log.op with
      | .all slot => { s with log := s.log.erased slot (s.checkpoint slot s.tally) }
      | _ => s
    let n := (s.restart false).withFences s
    .next { n with clk := { n.clk with
      phase := if s.clk.bistAfter then .bist else .service, bistAfter := false, bistDone := s.clk.bistDone && !s.clk.bistAfter, pfwSeen := false } }

/-- RST_N falls (R346). A block that waits after a block failure stays in its reset. -/
def execPinReset (t : Stamp) (s : State) : Out :=
  let s := s.upTo t 0
  if s.clk.absent || !s.clk.rstN then .next s
  else
    let s := if s.powered then s.deviceCut.enterReset false 3 .reset else s
    .next { s with clk := { s.clk with rstN := false } }

/-- RST_N rises. BLKNUM is sampled where the block has its logic supply (12 R286). -/
def execRstNRelease (t : Stamp) (blknum : BitVec 6) (s : State) : Out :=
  let s := s.upTo t 0
  if s.clk.absent || s.clk.rstN then .next s
  else if !s.powered then .next { s with clk := { s.clk with rstN := true } }
  else .next { s with clk := ({ s.clk with rstN := true, blkNum := blknum.toNat } : Clk).toBist }

/-! ### The PLL and the tally (R341-R344) -/

def execPllLock (t : Stamp) (s : State) : Out :=
  let s := s.upTo t 0
  if !s.powered || s.clk.lock then .next s
  else
    let s := { s with clk := ({ s.clk with lock := true } : Clk).toBist }
    if s.clk.talign then .next s else .next (s.jump 0)

/-- Lost lock in service is a block failure; in a reset the PLL relocks (R341). -/
def execPllLockLoss (t : Stamp) (s : State) : Out :=
  let s := s.upTo t 0
  if !s.powered || !s.clk.lock then .next s
  else if s.running then
    let s := (s.count 0 0x15 1).trip ⟨0x12, 0, 0, false, false⟩ s.tally
    .next { s with clk := { s.clk with lock := false } }
  else .next { s with clk := { s.clk with lock := false } }

/-- D of VY_CLK_GTDIFF: a difference in two's complement, saturating. -/
def gtDiff (val tally : Nat) : BitVec 32 :=
  let d : Int := (val : Int) - (tally : Int)
  BitVec.ofInt 32 (max (-2147483648) (min 2147483647 d))

/-- A strobe at an edge whose tally is u (R343, R344). -/
def State.strobe (s : State) (val : Word) (u : Stamp) : State :=
  if val.toNat % 24 ≠ 0 then
    ({ s with clk := { s.clk with badStb := min 65535 (s.clk.badStb + 1) } } : State).count 0 0x12 1
  else if !s.clk.talign then
    ((({ s with clk := { s.clk with talign := true, gtlast := val } } : State).count 0 0x10 1).jump val.toNat)
  else
    let s := ({ s with clk := { s.clk with gtlast := val } } : State).count 0 0x10 1
    if val.toNat = u then s
    else
      let s := ({ s with clk := { s.clk with
        gtD := gtDiff val.toNat u, gtMis := min 65535 (s.clk.gtMis + 1), gterr := true } } : State).count 0 0x11 1
      if s.alive then s.irq u else s

def execGtStrobe (t : Stamp) (val : Word) (s : State) : Out :=
  let s := s.upTo t 0
  if !s.powered || !s.clk.lock then .next s else .next (s.strobe val s.tally)

/-! ### BIST (R351) -/

/-- A failing unit found by BIST: fenced without a notice; a free spare takes its number, and a SWAP record is staged. -/
def State.bistFence (s : State) (k u : Nat) (t : Stamp) : State :=
  match s.freeSpare k with
  | some sp => ((if k = 0 then s else s.putFence k u).putSpare k sp u).logSwap k u sp false t
  | none => s.putFence k u

/-- Failing spares are out first; then each failing unit is replaced where a spare is left. -/
def State.bistKind (s : State) (k n : Nat) (bad : Nat → Bool) (t : Stamp) : State :=
  let s := ((spares k).filter bad).foldl (fun s u => s.putFence k u) s
  ((List.range n).filter bad).foldl (fun s u => s.bistFence k u t) s

/-- No unit fenced, no spare in use. -/
def State.unfenced (s : State) : State := s.withFences State.reset

def onesIn {n : Nat} (w : BitVec n) : Nat := ((List.range n).filter fun i => bitAt w i).length

/-- The array test ends: that of a reset, with its findings, or the same test run by WX_MBIST. DESIGN CHOICE: the findings of the latter are
for the test equipment alone; R351 gives effects to those of a reset's test (log entry 102). -/
def execBistDone (t : Stamp) (lanes : BitVec 9) (cores : BitVec 18) (tiles : BitVec 34) (engines : BitVec 9) (fst : BitVec 2)
    (text : BitVec 22) (others : BitVec 8) (s : State) : Out :=
  let s := s.upTo t (kSub 14)
  let failed := onesIn lanes + onesIn cores + onesIn tiles + onesIn engines + onesIn fst + onesIn text + others.toNat
  if !s.powered || !s.clk.lock then .next s
  else if s.clk.phase ≠ .bist then .next (if s.clk.mbist then { s with clk := { s.clk with mbist := false, mbistBad := failed } } else s)
  else
    let u := s.tally
    let s := { s with clk := { s.clk with phase := .service } }
    let s := s.unfenced.bistKind 0 8 (bitAt lanes) u
    let s := (s.bistKind 1 32 (bitAt tiles) u).bistKind 2 8 (bitAt engines) u
    let s := (s.bistKind 3 2 (bitAt fst) u).bistKind 4 22 (bitAt text) u
    let s := s.bistKind 5 16 (bitAt cores) u
    .next { s with clk := { s.clk with
      bistDone := true, fatal := decide (others ≠ 0), failed := min 255 failed, arrayLost := false } }

/-! ### Test access (12 R283, R284) -/

/-- One cycle of the wrapper's selected register. -/
def SerStep.run (r : List Bool) : SerStep → List Bool
  | .capture bits => bits
  | .shift wsi => r.drop 1 ++ [wsi]

/-- WRSTN low sets WS_BYPASS, a 1-bit register between WSI and WSO. Otherwise the cycles run and the update takes its instruction; WX_MBIST
starts the array test. -/
def Clk.wrapperUpdate (c : Clk) (w : WrapperUpdate) : Clk :=
  if w.wrstnLow then { c with wrapper := .bypass, wser := [false], wshift := false, mbist := false }
  else { c with
    wser := w.steps.foldl SerStep.run c.wser, wrapper := w.ins, wcells := w.cells, winputs := w.inputs, wshift := w.shifting
    mbist := decide (w.ins = .mbist) && (c.mbist || decide (c.wrapper ≠ .mbist)) }

def execWrapperInstructionUpdate (t : Stamp) (w : WrapperUpdate) (s : State) : Out :=
  let s := s.upTo t 0
  if !s.powered then .next s else .next { s with clk := s.clk.wrapperUpdate w }

/-- One cycle of the boundary-scan segment. -/
def Clk.bsStep (c : Clk) : BsStep → Clk
  | .capture p => { c with bsShift := p }
  | .shift si => { c with bsShift := (c.bsShift >>> 1) ||| (if si then 0x800#12 else 0#12) }
  | .update => { c with bsCells := c.bsShift }

/-- The level of BS_MODE is the die's; the segment works only while the block is present and powered (R286). -/
def execBsMode (t : Stamp) (b : BsUpdate) (s : State) : Out :=
  let s := s.upTo t 0
  let c := if s.powered then b.steps.foldl Clk.bsStep s.clk else s.clk
  .next { s with clk := { c with bsMode := b.high } }

end Sys2Proof.Machine
end

