-- ==== Sys2Proof/Machine/Counters.lean ====
section
/-! DEFINITION. Counters.lean: counter registers and the central reader (16 R364-R371; 11 R259): CNT_CLR, SNAPSHOT, AUTO_SNAPSHOT,
SNAPSHOT_WRITTEN. -/

namespace Sys2Proof.Machine

/-! ### Counter registers (R364, R365) -/

def State.bank (s : State) (b : Nat) : List Counter := (s.cnt.banks[b]?).getD []
def State.counter (s : State) (b n : Nat) : Counter := ((s.bank b)[n]?).getD ⟨0, false, 0, false, false⟩
def State.updCounter (s : State) (b n : Nat) (f : Counter → Counter) : State :=
  { s with cnt := { s.cnt with banks := updAt s.cnt.banks b fun l => updAt l n f } }

def Counter.vWord (c : Counter) : Word := pack 64 [(0, c.value), (32, nb c.ovf)]
def Counter.selWord (c : Counter) : Word := pack 64 [(0, c.event), (8, nb c.chain), (9, nb c.en)]

def State.writeCnt (s : State) (b n : Nat) (data : Word) : State :=
  s.updCounter b n fun c => { c with value := fld data 0 32, ovf := bitAt data 32 }
def State.writeSel (s : State) (b n : Nat) (data : Word) : State :=
  s.updCounter b n fun c => { c with event := fld data 0 8, chain := bitAt data 8, en := bitAt data 9 }

/-- VY_CNT_CLR (R370). -/
def State.clearBanks (s : State) (data : Word) : State :=
  { s with cnt := { s.cnt with banks := s.cnt.banks.mapIdx fun b l =>
      if (bitAt data b) = true then (l.map fun (c : Counter) => { c with value := 0, ovf := false }) else l } }

def execCntClr (t : Stamp) (data : Word) (s : State) : Out := onWrite t s fun s => s.clearBanks data

/-- VY_CNT_CTL (R370): a write that sets AUTO needs a ring in domain 0's regions. -/
def State.writeCntCtl (s : State) (data : Word) : State :=
  let auto := bitAt data 16
  if auto && !s.cnt.auto && (decide (s.cnt.nsnap = 0) || !s.owned 0 s.cnt.base (1024 * s.cnt.nsnap)) then s.ignored 14
  else { s with cnt := { s.cnt with
    freeze := data.setWidth 15, auto := auto, autoAt := if auto && !s.cnt.auto then s.tally else s.cnt.autoAt } }

/-- VY_CNT_RING: writable only while AUTO = 0. -/
def State.writeRing (s : State) (data : Word) : State :=
  if s.cnt.auto then s.ignored 14
  else { s with cnt := { s.cnt with base := fld data 10 30 * 1024, nsnap := fld data 40 16 } }

/-- VY_CNT_PERIOD: 1 to 1,000,000. What falls due from the write's stamp on does so by the new period. -/
def State.writePeriod (s : State) (data : Word) : State :=
  let p := fld data 0 20
  if p = 0 ∨ p > 1000000 then s.ignored 14
  else { s with cnt := { s.cnt with period := p, autoAt := max s.cnt.autoAt (s.tally - 1) } }

/-! ### Snapshots (R369, R371) -/

/-- The OVF bits of all counters, bank b counter n at bit 16b + n. -/
def ovfField (banks : List (List Counter)) : Nat :=
  (banks.mapIdx fun b l => (l.mapIdx fun n c => nb c.ovf <<< (16 * b + n)).sum).sum

/-- The 1,024 bytes of a snapshot; its CRC is computed over them with bytes 60-63 taken as zero. -/
def State.snapBytes (s : State) (seq : Nat) (periodic : Bool) (stamp : Stamp) : List Byte :=
  let head := leBytes 8 (pack 64 [(0, 1), (8, s.clk.blkNum), (14, nb periodic), (16, 15), (20, 16), (32, seq)]).toNat ++
    leBytes 8 stamp ++ leBytes 32 (ovfField s.cnt.banks) ++ leBytes 8 s.cnt.freeze.toNat ++ leBytes 4 0
  let vals := fitBytes 960 (s.cnt.banks.flatMap fun l => l.flatMap fun c => leBytes 4 c.value)
  head ++ leBytes 4 (crc32c (head ++ leBytes 4 0 ++ vals)).toNat ++ vals

/-- Line k of a snapshot as a write request. -/
def snapLine (addr seq : Nat) (bs : List Byte) (k : Nat) : MReq :=
  ⟨true, addr + 128 * k, BitVec.ofNat 1024 (leNat ((bs.drop (128 * k)).take 128)), BitVec.allOnes 128, 0, .snap seq⟩

/-- Latch a snapshot and hand its lines to memory port 2; both places in use: it is skipped. -/
def State.latch (s : State) (periodic : Bool) (stamp : Stamp) (addr : Option Nat) (cmd : Option Nat) : State :=
  if s.cnt.snaps.length ≥ 2 then
    let s := { s with cnt := { s.cnt with skipped := min 65535 (s.cnt.skipped + 1) } }
    (if periodic then s.count 14 0x1C 1 else s).completeOpt cmd stBUSY []
  else
    let q := s.cnt.seq
    let a := addr.getD (s.cnt.base + 1024 * (q % max 1 s.cnt.nsnap))
    let bs := s.snapBytes q periodic stamp
    let s := { s with cnt := { s.cnt with seq := (q + 1) % 2 ^ 32, snaps := s.cnt.snaps ++ ([⟨q, stamp, periodic, a, cmd, 8⟩] : List Snap) } }
    let p := s.port 2
    s.setPort 2 { p with waitq := p.waitq ++ (List.range 8).map fun k => snapLine a q bs k }

/-- SNAPSHOT (R259). -/
def State.snapshot (s : State) (c : Cmd) : State :=
  let a := fld (c.word 2) 0 40
  if !s.owned 0 a 1024 then s.complete c.id stBAD_ARG [] else s.latch false s.tally (some a) (some c.id)

def execSnapshot (t : Stamp) (s : State) : Out := onCommand t 0x33 true s fun s c => s.snapshot c

/-- The next tally at which a periodic snapshot falls due (R370). -/
def Counters.autoDue (c : Counters) : Stamp :=
  let p := 2400 * max 1 c.period
  (c.autoAt / p + 1) * p

def execAutoSnapshot (t : Stamp) (s : State) : Out :=
  let s := s.upTo t (kSub 14)
  let d := s.cnt.autoDue
  if !s.running || !s.cnt.auto || decide (s.tally < d) then .next s
  else .next ({ (s.latch true d none none) with cnt := { (s.latch true d none none).cnt with autoAt := d } })

def execSnapshotWritten (t : Stamp) (s : State) : Out :=
  let s := s.upTo t (kSub 14)
  match s.cnt.snaps.find? fun x => decide (x.left = 0) with
  | none => .next s
  | some x =>
    if !s.running then .next s
    else
      let s := ({ s with cnt := { s.cnt with snaps := s.cnt.snaps.filter fun y => y.seq ≠ x.seq } } : State).count 14 0x1B 1
      .next (s.completeOpt x.cmd stOK [BitVec.ofNat 64 x.stamp])

end Sys2Proof.Machine
end

