-- ==== Sys2Proof/Machine/Registers.lean ====
section
/-! DEFINITION. Registers.lean: the control window (00 R5-R7; 16 R358-R363; the register tables of 02-16): what every register reads
and what a write of it does; REG_WRITE, BAD_REG_ACCESS, MAN_DATA0_READ. Offsets are byte offsets; every access is of one 64-bit
register. -/

namespace Sys2Proof.Machine

/-! ### Manifest entries (07 R135, R154) -/

/-- The eight words of an entry. -/
def Entry.words (e : Entry) : List Word := [
  pack 64 [(0, e.state.code), (4, e.dom), (12, nb e.esel), (13, e.prio), (17, nb e.np), (18, nb e.plast), (19, nb e.eoa),
    (20, nb e.spec), (21, e.outcome), (24, nb e.endv), (32, e.gen), (48, e.epoch)],
  pack 64 [(0, e.committed), (32, e.released)],
  pack 64 [(0, e.held), (12, e.pdl), (32, e.aseq)],
  BitVec.ofNat 64 e.pstamp,
  BitVec.ofNat 64 e.lastrel,
  pack 64 [(0, e.plist), (40, e.npage), (48, e.peer), (54, nb e.mmode)],
  pack 64 [(0, e.frame), (12, e.fgen), (20, e.specN), (27, e.steps)],
  pack 64 [(0, e.migH), (32, e.pend)]]

/-- A read of VY_MAN_DATA0 latches all eight words. -/
def State.latchEntry (s : State) : State := { s with man := { s.man with data := (s.entry s.man.sel).words } }

def State.manData (s : State) (n : Nat) : Word := (s.man.data[n]?).getD 0

def execManData0Read (t : Stamp) (s : State) : Out :=
  let s := s.upTo t 0
  if !s.alive || !s.portFree then .next s
  else
    let s := s.latchEntry
    .next (s.respond (s.manData 0))

/-! ### Reads, block by block. `none`: no register at the offset. -/

def State.rdClock (s : State) (o : Nat) : Option Word :=
  if o = 0x1000 then some (pack 64 [(0, nb s.clk.lock), (1, nb s.clk.talign), (2, nb s.clk.gterr)])
  else if o = 0x1008 then some (BitVec.ofNat 64 s.tally)
  else if o = 0x1010 then some s.clk.gtlast
  else if o = 0x1018 then some (pack 64 [(0, s.clk.gtD.toNat), (32, s.clk.gtMis), (48, s.clk.badStb)])
  else if o = 0x1020 then some 0
  else if o = 0x1028 then some (pack 64 [(0, s.clk.kind), (3, nb s.clk.bistDone), (4, nb s.clk.fatal), (8, s.clk.failed)])
  else if o = 0x1030 then
    some (pack 64 [(0, nb s.clk.pgArray), (1, nb s.clk.pfwLow), (2, nb s.clk.pfwSeen), (3, nb s.clk.arrayLost)])
  else none

/-- Whole messages in the notice queue. -/
def Landing.nqMsgs (l : Landing) : Nat := (l.nq.filter fun c => c.fin).length
/-- Whole command messages. -/
def Landing.cqMsgs (l : Landing) : Nat := (l.cq.filter fun c => c.ends && !c.isGap).length

def State.rdLanding (s : State) (o : Nat) : Option Word :=
  let l := s.lnd
  if o = 0x2000 then some (pack 64 [(0, nb l.en), (1, nb l.cqIE), (2, nb l.nqIE), (3, nb l.injEn)])
  else if o = 0x2008 then some (pack 64 [(0, s.clk.blkNum), (6, nb (s.eraseArmed s.tally))])
  else if o = 0x2010 then some (pack 64 [(0, 511 - l.cq.length), (16, l.cqMsgs), (32, l.opens.length)])
  else if o = 0x2018 then some (BitVec.ofNat 64 l.cqLevel)
  else if o = 0x2020 then some (pack 64 [(0, l.nq.length), (16, l.nqMsgs), (32, l.dropped)])
  else if o = 0x2028 then some (BitVec.ofNat 64 l.nqLevel)
  else if o = 0x2030 then some (pack 64 [(1, nb l.nqFlush.isSome)])
  else if o = 0x2038 then some (pack 64 [(0, l.misroute), (16, l.cmdDrop)])
  else if 0x2040 ≤ o ∧ o ≤ 0x2080 then some 0
  else if 0x20C0 ≤ o ∧ o ≤ 0x20F8 then some ((l.nqbuf[(o - 0x20C0) / 8]?).getD 0)
  else none

/-- Entries that p names. -/
def State.countEntries (s : State) (p : Entry → Bool) : Nat := (s.man.entries.filter fun x => p x.2).length

def State.rdManifest (s : State) (o : Nat) : Option Word :=
  if o = 0x3000 then some (pack 64 [(0, nb s.man.en), (16, s.man.migto)])
  else if o = 0x3008 then some (pack 64 [(0, s.countEntries fun e => decide (e.state ≠ .free)),
    (17, s.countEntries fun e => decide (e.state = .migOut) || decide (e.state = .migIn))])
  else if o = 0x3010 then some (BitVec.ofNat 64 s.man.sel)
  else if 0x3040 ≤ o ∧ o ≤ 0x3078 then some (s.manData ((o - 0x3040) / 8))
  else none

/-- VY_TT_CLSn and VY_TT_POSn (08 R185). -/
def State.ttcWord (s : State) (n : Nat) : Word :=
  let c := s.ttc n
  pack 64 [(0, nb c.active), (1, nb c.av), (2, nb c.sw.isSome), (3, c.status), (8, c.nslot0), (17, c.nslot1), (32, c.runlim)]
def State.posWord (s : State) (n : Nat) : Word :=
  let c := s.ttc n
  let slot := if c.av then (c.current s.tally).1 else 0
  pack 64 [(0, slot), (8, nb c.active), (9, nb (!(overUnits s n s.tally).isEmpty)), (32, c.forfeits)]

def State.semWord (s : State) : Word :=
  let x := (s.domOf (s.dsp.semSel / 16)).sem (s.dsp.semSel % 16)
  pack 64 [(0, nb x.holder.isSome), (1, nb x.reclaimed), (2, x.holder.getD 0), (8, x.waiters.length)]

def State.rdDispatcher (s : State) (o : Nat) : Option Word :=
  if o = 0x4000 then some (pack 64 [(0, nb s.dsp.en)])
  else if o = 0x4008 then some (pack 64 [(0, s.dsp.insts.length),
    (12, (s.pil.slots.filter fun p => p.2.job.isSome).length), (32, s.dsp.startQ.length)])
  else if o = 0x4010 then some (BitVec.ofNat 64 s.dsp.saveBase)
  else if o = 0x4018 then some (BitVec.ofNat 64 s.dsp.frames.length)
  else if o = 0x4020 then some (BitVec.ofNat 64 s.tt.holdlim)
  else if o = 0x4028 then some (BitVec.ofNat 64 s.dsp.semSel)
  else if o = 0x4030 then some s.semWord
  else if 0x4040 ≤ o ∧ o ≤ 0x4058 then some (s.ttcWord ((o - 0x4040) / 8))
  else if 0x4060 ≤ o ∧ o ≤ 0x4078 then some (s.posWord ((o - 0x4060) / 8))
  else none

def State.rdPilot (s : State) (o : Nat) : Option Word :=
  let p := s.pil
  if o = 0x5000 then some (pack 64 [(0, p.fenced.toNat), (20, p.sp16.getD 0), (24, nb p.sp16.isSome), (28, p.sp17.getD 0),
    (32, nb p.sp17.isSome)])
  else if o = 0x5008 then some (pack 64 [(0, p.swapCore), (8, nb p.swapGo)])
  else if o = 0x5100 then some p.lastf
  else if o = 0x5108 then some (BitVec.ofNat 64 p.stale)
  else none

/-- Sum over the epochs in use. -/
def State.sumEpochs (s : State) (f : Epoch → Nat) : Nat := (s.epochs.map fun x => f x.2.2).sum

def State.rdToken (s : State) (o : Nat) : Option Word :=
  let k := s.tok
  let used := k.masks.filter fun p => p.2.used
  if o = 0x6000 then some (pack 64 [(0, nb k.en), (1, nb k.maskEn), (2, nb k.specEn)])
  else if o = 0x6008 then some (pack 64 [(0, k.spareFor), (3, nb k.spareUsed), (8, k.fenced.toNat), (16, nb k.spareBad)])
  else if o = 0x6010 then some (pack 64 [(0, k.swapLane), (8, nb k.swapGo)])
  else if o = 0x6018 then some (BitVec.ofNat 64 k.mspill)
  else if o = 0x6020 then some (BitVec.ofNat 64 (4096 - (k.frames.filter fun p => p.2.inUse).length))
  else if o = 0x6028 then some (pack 64 [(0, s.sumEpochs fun e => e.nhdr), (21, s.sumEpochs fun e => e.npool)])
  else if o = 0x6030 then some (pack 64 [(0, (used.filter fun p => decide (p.1 < 1024)).length), (11, used.length)])
  else none

def State.rdText (s : State) (o : Nat) : Option Word :=
  let x := s.txt
  if o = 0x7000 then some (pack 64 [(0, nb x.en), (1, nb x.pinEn)])
  else if o = 0x7008 then some (x.fenced.setWidth 64)
  else if o = 0x7010 then some (BitVec.ofNat 64 x.fenceU)
  else if o = 0x7018 then some (BitVec.ofNat 64 x.viewBase)
  else if o = 0x7020 then some (BitVec.ofNat 64 (x.views.filter fun v => v.slot.isSome).length)
  else if o = 0x7028 then some (BitVec.ofNat 64 x.fffd)
  else if o = 0x7030 then some (BitVec.ofNat 64 x.pdrop)
  else if 0x7100 ≤ o ∧ o ≤ 0x71F8 then
    let v := s.vslot ((o - 0x7100) / 16)
    if o % 16 = 0 then some (BitVec.ofNat 64 v.base)
    else some (pack 64 [(0, nb v.valid), (1, nb v.shared), (2, v.owner), (10, v.gen), (18, v.ntok)])
  else none

def State.rdClassifier (s : State) (o : Nat) : Option Word :=
  let c := s.cls
  if o = 0x8000 then some (pack 64 [(0, nb c.en)])
  else if o = 0x8008 then some (pack 64 [(0, c.fenced.toNat), (40, c.sp32.getD 0), (46, nb c.sp32.isSome), (48, c.sp33.getD 0),
    (54, nb c.sp33.isSome)])
  else if o = 0x8010 then some (pack 64 [(0, c.swapTile), (8, nb c.swapGo)])
  else if o = 0x8018 then some (BitVec.ofNat 64 c.pinmax)
  else if o = 0x8020 then some (pack 64 [(0, pinned c.cache), (16, c.cache.length)])
  else if o = 0x8028 then some (pack 64 [(0, c.goldAddr), (48, nb c.goldGo)])
  else if o = 0x8030 then some (pack 64 [(0, c.goldPass.toNat), (40, nb c.goldDone)])
  else if o = 0x8038 then some (BitVec.ofNat 64 (c.skew % 2 ^ 32))
  else if o = 0x8040 then some (BitVec.ofNat 64 (c.ovf % 2 ^ 32))
  else none

def State.rdTrees (s : State) (o : Nat) : Option Word :=
  let r := s.tre
  if o = 0x9000 then some (pack 64 [(0, nb r.en), (1, nb r.fen), (2, nb r.test)])
  else if o = 0x9008 then some (pack 64 [(0, r.fenced.toNat), (12, r.spare.getD 0), (15, nb r.spare.isSome), (16, r.fst.toNat)])
  else if o = 0x9010 then some (pack 64 [(0, r.swapEng), (8, nb r.swapGo)])
  else if o = 0x9018 then some (BitVec.ofNat 64 r.fstUnit)
  else if o = 0x9020 then some (BitVec.ofNat 64 r.pinmax)
  else if o = 0x9028 then some (pack 64 [(0, pinned r.store), (16, r.store.length)])
  else if o = 0x9030 then some (pack 64 [(0, r.goldAddr), (48, nb r.goldGo), (49, nb r.swapChk)])
  else if o = 0x9038 then some (pack 64 [(0, r.goldPass.toNat), (16, nb r.goldDone)])
  else if o = 0x9040 then some (BitVec.ofNat 64 r.miss)
  else if o = 0x9048 then some (BitVec.ofNat 64 (r.tie % 2 ^ 32))
  else none

/-- Held chunks that p names. -/
def State.countChunks (s : State) (p : Chunk → Bool) : Nat :=
  (s.man.entries.map fun x => (x.2.req.chunks.filter p).length).sum

/-- Closed chunks of a pass-through domain whose graph has not delivered a verdict (R57). -/
def State.passAwait (s : State) : Nat :=
  (s.man.entries.map fun x =>
    let h := s.handleOf x.1
    (x.2.req.past.filter fun p => decide (p.2.fate = .passthru) &&
      (s.graphWaits h true p.1 || s.dsp.insts.any fun q => decide (q.2.handle = h) && q.2.answer && decide (q.2.k = p.1) &&
        q.2.parent.isNone && !bitAt q.2.done q.2.vtask)).length).sum

/-- Entries of the speculative area: the nodes of the frames in use that T10 has entered (R60; 02 R22). A BADTREE node is not held
(02 R35). -/
def State.specUse (s : State) : Nat :=
  ((s.tok.frames.filter fun p => p.2.inUse).map fun p => (p.2.nodes.filter fun q => q.2.held && !q.2.bad).length).sum

/-- Reads of the Ramp's registers (03 R64). DESIGN CHOICE: a count that passes the width of its field in VY_RAMP_STAT or VY_RAMP_OUTQ reads
modulo 2^17 or 2^20 (log entry 103). -/
def State.rdRamp (s : State) (o : Nat) : Option Word :=
  let r := s.ramp
  if o = 0xA000 then some (pack 64 [(0, nb r.en), (1, nb r.levelIE)])
  else if o = 0xA008 then some (BitVec.ofNat 64 r.level)
  else if o = 0xA010 then some (pack 64 [(0, s.holdUse), (21, r.peak)])
  else if o = 0xA018 then some (BitVec.ofNat 64 s.specUse)
  else if o = 0xA020 then some (pack 64 [
    (0, ((s.countChunks fun c => c.closed.isSome && c.verdict.isNone && c.judged.isNone) + s.passAwait) % 2 ^ 17),
    (17, (s.countChunks fun c => c.judged.isSome) % 2 ^ 17)])
  else if o = 0xA028 then some (BitVec.ofNat 64 (r.outq.length % 2 ^ 20))
  else none

/-- Words D0 and D1 of a region descriptor (13 R288). -/
def Region.d0 (r : Region) : Word := pack 64 [(0, nb r.v), (1, nb r.shared), (2, nb r.wr), (16, r.base / 65536)]
def Region.d1 (r : Region) : Word := pack 64 [(0, r.size), (32, r.owner), (40, r.gen)]

def State.rdMemory (s : State) (o : Nat) : Option Word :=
  let m := s.mem
  if o = 0xB000 then some (pack 64 [(0, nb m.en), (1, m.win)])
  else if o = 0xB008 then some (pack 64 [(0, (m.ports.map fun p => p.2.out.length).sum), (16, m.mserr)])
  else if o = 0xB010 then some (BitVec.ofNat 64 m.sel)
  else if o = 0xB018 then some (s.region m.sel).d0
  else if o = 0xB020 then some (s.region m.sel).d1
  else if o = 0xB028 then some (BitVec.ofNat 64 m.viol)
  else if o = 0xB030 then some (pack 64 [(0, m.scIdx), (16, nb (m.delayed.contains (.flush m.scIdx)))])
  else if o = 0xB038 then some (pack 64 [(0, m.scLines.length), (15, (m.scLines.filter fun p => p.2.dirty).length), (32, m.flushes)])
  else none

def State.gstat (s : State) (g : Nat) : Word :=
  let x := s.group g
  pack 64 [(0, x.peer), (6, nb x.isUp), (8, if x.isUp then x.free else 0), (17, x.link % 2 ^ 15),
    (32, (s.waiting.filter fun o => decide (o.group = g)).length)]

def State.rdFerry (s : State) (o : Nat) : Option Word :=
  let f := s.fry
  if o = 0xC000 then
    some (pack 64 [(0, nb f.en), (1, f.groups), (3, nb f.loop), (4, nb f.miren), (5, f.mirg)])
  else if o = 0xC008 then
    some (pack 64 [(0, ((List.range 8).map fun g => nb (s.group g).isUp <<< g).sum), (8, f.fenced.toNat), (17, f.spareFor),
      (20, nb f.spareUsed)])
  else if o = 0xC010 then some (pack 64 [(0, f.swapLane), (8, nb f.swapGo)])
  else if o = 0xC018 then some (f.txeq.setWidth 64)
  else if o = 0xC020 then some (BitVec.ofNat 64 f.mirbase)
  else if o = 0xC028 then some (pack 64 [(0, f.fecOk), (32, f.fecBad)])
  else if o = 0xC030 then some (pack 64 [(0, f.repeated), (32, f.ovf)])
  else if 0xC040 ≤ o ∧ o ≤ 0xC078 then some (s.gstat ((o - 0xC040) / 8))
  else none

def State.rdWatch (s : State) (o : Nat) : Option Word :=
  let w := s.wch
  let l := s.log
  if o = 0xD000 then some (pack 64 [(0, nb w.recEn), (1, nb w.ceNote)])
  else if o = 0xD008 then some (BitVec.ofNat 64 w.reclim)
  else if o = 0xD010 then some (pack 64 [(0, s.countEntries fun e => decide (e.state = .recover)), (32, w.recOk), (48, w.recBad)])
  else if o = 0xD018 then some (BitVec.ofNat 64 w.shadow)
  else if o = 0xD020 then some w.lastd
  else if o = 0xD028 then some (BitVec.ofNat 64 w.ce)
  else if o = 0xD030 then some (BitVec.ofNat 64 w.badreg)
  else if o = 0xD040 then some (pack 64 [(0, nb l.en), (1, nb (!l.nor)), (2, nb l.wrap), (3, nb l.verd), (4, nb l.ce)])
  else if o = 0xD048 then
    some (pack 64 [(0, nb l.mounted), (1, nb l.full), (2, nb l.erasing), (3, nb l.pfw), (4, nb l.failed), (32, l.torn)])
  else if o = 0xD050 then some (pack 64 [(0, l.head), (32, l.nextSeq)])
  else if o = 0xD058 then some (BitVec.ofNat 64 l.cap)
  else if o = 0xD060 then some (BitVec.ofNat 64 (l.lost % 2 ^ 32))
  else if o = 0xD068 then some (BitVec.ofNat 64 l.boot)
  else none

def State.rdInject (s : State) (o : Nat) : Option Word :=
  if o = 0xE000 then
    match s.inj.armed with
    | some a => some (pack 64 [(0, a.point), (16, a.mode), (24, a.count - a.applied - a.lapsed), (32, 1)])
    | none => some 0
  else if o = 0xE008 then some 0
  else if o = 0xE010 then some (BitVec.ofNat 64 s.inj.count)
  else none

def State.rdCounters (s : State) (o : Nat) : Option Word :=
  let c := s.cnt
  if o < 0xFF00 then
    let k := (o % 256) / 8
    let x := s.counter ((o - 0xF000) / 256) (k % 16)
    if k < 16 then some x.vWord else some x.selWord
  else if o = 0xFF00 then some (pack 64 [(0, c.freeze.toNat), (16, nb c.auto)])
  else if o = 0xFF08 then some 0
  else if o = 0xFF10 then some (pack 64 [(0, c.base), (40, c.nsnap)])
  else if o = 0xFF18 then some (BitVec.ofNat 64 c.period)
  else if o = 0xFF20 then some (pack 64 [(0, c.seq), (32, c.skipped), (48, nb (!c.snaps.isEmpty))])
  else none

/-- Class, bank and slot of a slot-table offset (08 R170). -/
def slotOf (o : Nat) : Nat × Bool × Nat :=
  let k := o - 0x10000
  (k / 0x1000, decide (k % 0x1000 ≥ 0x800), k % 0x800 / 8)

/-- VY_DOM_STAT (16 R363). -/
def Domain.statWord (d : Domain) : Word :=
  let num := fun (e : Option Epoch) => match e with
    | some x => if x.live then x.num else 0
    | none => 0
  let live := fun (e : Option Epoch) => match e with
    | some x => x.live
    | none => false
  pack 64 [(0, nb d.isOpen), (1, nb (d.isOpen && d.nonenf)), (2, nb d.active.isSome), (3, nb (d.active.getD false)), (4, nb (live d.ep0)),
    (5, nb (live d.ep1)), (16, num d.ep0), (32, num d.ep1)]

def RampSet.word (r : RampSet) (nonenf : Bool) : Word :=
  pack 64 [(0, r.chunk), (9, nb r.passthru), (10, nb r.miss), (11, nb r.missEsc), (12, nb nonenf), (16, r.deadline), (36, r.close)]

def State.rdDomain (s : State) (o : Nat) : Option Word :=
  let n := (o - 0x20000) / 256
  let d := s.domOf n
  let f := o % 256
  if f = 0x00 then some d.statWord
  else if f = 0x20 then some (d.ramp.word d.nonenf)
  else if f = 0x28 then some (pack 64 [(0, d.pmax), (8, nb d.formB), (9, nb d.formT)])
  else if f = 0x30 then some (pack 64 [(0, d.quota), (32, s.inuse n)])
  else if f = 0x38 then some (pack 64 [(0, s.epCount n false), (32, s.epCount n true)])
  else if f = 0x40 then some (pack 64 [(0, d.dclass), (16, d.jobmax)])
  else if f = 0x48 then some (BitVec.ofNat 64 d.jobs)
  else none

/-- What the register at an offset reads; none where there is no register (R7). -/
def State.readReg (s : State) (o : Nat) : Option Word :=
  if o = 0 then some vyId
  else if o < 0x1000 then (if o ≤ 0x40 then some (vyCap (o / 8 - 1)) else none)
  else if o < 0x2000 then s.rdClock o
  else if o < 0x3000 then s.rdLanding o
  else if o < 0x4000 then s.rdManifest o
  else if o < 0x5000 then s.rdDispatcher o
  else if o < 0x6000 then s.rdPilot o
  else if o < 0x7000 then s.rdToken o
  else if o < 0x8000 then s.rdText o
  else if o < 0x9000 then s.rdClassifier o
  else if o < 0xA000 then s.rdTrees o
  else if o < 0xB000 then s.rdRamp o
  else if o < 0xC000 then s.rdMemory o
  else if o < 0xD000 then s.rdFerry o
  else if o < 0xE000 then s.rdWatch o
  else if o < 0xF000 then s.rdInject o
  else if o < 0x10000 then s.rdCounters o
  else if o < 0x14000 then
    let k := slotOf o
    some ((s.ttc k.1).word k.2.1 k.2.2)
  else if o < 0x20000 then none
  else if o < 0x30000 then s.rdDomain o
  else none

/-- An access to an offset without a register (R7); the count wraps (log entry 11). -/
def State.badReg (s : State) : State := { s with wch := { s.wch with badreg := (s.wch.badreg + 1) % 2 ^ 32 } }

/-- A read: of VY_LND_NQPOP it pops, of VY_MAN_DATA0 it latches. -/
def State.access' (s : State) (o : Nat) : State × Word :=
  if o = 0x2088 then s.popCell
  else if o = 0x3040 then (s.latchEntry, s.latchEntry.manData 0)
  else match s.readReg o with
    | some w => (s, w)
    | none => (s.badReg, 0)

/-! ### Writes -/

/-- The counter bank of the register at an offset (R359). -/
def regBank (o : Nat) : Nat :=
  if o < 0x2000 then 0 else if o < 0x3000 then 1 else if o < 0x4000 then 2 else if o < 0x5000 then 4 else if o < 0x6000 then 5
  else if o < 0x7000 then 6 else if o < 0x8000 then 7 else if o < 0x9000 then 8
  else if o < 0xA000 then (if o = 0x9018 ∨ o = 0x9040 then 9 else 10)
  else if o < 0xB000 then 11 else if o < 0xC000 then 12 else if o < 0xD000 then 13 else if o < 0x10000 then 14
  else if o < 0x20000 then 4
  else
    let f := o % 256
    if f = 0x20 then 11 else if f = 0x28 then 7 else if f = 0x30 ∨ f = 0x38 then 2 else if f = 0x40 ∨ f = 0x48 then 4 else 0

/-- A write that a rule ignores is counted in the register's bank. -/
def State.checked (s : State) (o : Nat) (ok : Bool) (f : State → State) : State := if ok then f s else s.ignored (regBank o)

def State.wrLanding (s : State) (o : Nat) (w : Word) : Option State :=
  if o = 0x2000 then some (s.gated [(s.lnd.en, bitAt w 0)] fun s =>
    let u := edgeL s.tally
    let l := s.lnd
    let s := ((s.lagged .lnd l.en (bitAt w 0) u).lagged .cqIE l.cqIE (bitAt w 1) u).lagged .nqIE l.nqIE (bitAt w 2) u
    let s := s.lagged .inj l.injEn (bitAt w 3) u
    { s with lnd := { l with en := bitAt w 0, cqIE := bitAt w 1, nqIE := bitAt w 2, injEn := bitAt w 3 } })
  else if o = 0x2018 then
    let n := fld w 0 10
    some (s.checked o (decide (1 ≤ n) && decide (n ≤ 511)) fun s => { s with lnd := { s.lnd with cqLevel := n } })
  else if o = 0x2028 then
    let n := fld w 0 12
    some (s.checked o (decide (1 ≤ n) && decide (n ≤ 2047)) fun s => { s with lnd := { s.lnd with nqLevel := n } })
  else if o = 0x2030 then some (s.writeFlush w)
  else if 0x2040 ≤ o ∧ o ≤ 0x2078 then
    some { s with lnd := { s.lnd with cqbuf := putAt 0 s.lnd.cqbuf ((o - 0x2040) / 8) w } }
  else if o = 0x2080 then some (s.pushCell (bitAt w 0))
  else none

def State.wrManifest (s : State) (o : Nat) (w : Word) : Option State :=
  if o = 0x3000 then
    let m := fld w 16 20
    some (s.gated [(s.man.en, bitAt w 0)] fun s => s.checked o (decide (1 ≤ m) && decide (m ≤ 1000000)) fun s =>
      { s with man := { s.man with en := bitAt w 0, migto := m } })
  else if o = 0x3010 then some { s with man := { s.man with sel := fld w 0 16 } }
  else none

def State.wrDispatcher (s : State) (o : Nat) (w : Word) : Option State :=
  if o = 0x4000 then some (s.gated [(s.dsp.en, bitAt w 0)] fun s =>
    let s := s.lagged .dsp s.dsp.en (bitAt w 0) (edgeM s.tally)
    { s with dsp := { s.dsp with en := bitAt w 0 } })
  else if o = 0x4010 then some (s.checked o (!s.dsp.en && decide (fld w 0 27 = 0)) fun s =>
    { s with dsp := { s.dsp with saveBase := fld w 0 40 } })
  else if o = 0x4020 then some (s.checked o (decide (fld w 0 16 ≠ 0)) fun s => { s with tt := { s.tt with holdlim := fld w 0 16 } })
  else if o = 0x4028 then some { s with dsp := { s.dsp with semSel := fld w 0 12 } }
  else if 0x4040 ≤ o ∧ o ≤ 0x4058 then some (s.writeTtc ((o - 0x4040) / 8) w)
  else none

def State.wrToken (s : State) (o : Nat) (w : Word) : Option State :=
  if o = 0x6000 then some (s.gated [(s.tok.en, bitAt w 0)] fun s =>
    let u := edgeG s.tally
    let k := s.tok
    let s := ((s.lagged .tok k.en (bitAt w 0) u).lagged .mask k.maskEn (bitAt w 1) u).lagged .spec k.specEn (bitAt w 2) u
    { s with tok := { k with en := bitAt w 0, maskEn := bitAt w 1, specEn := bitAt w 2 } })
  else if o = 0x6010 then some (s.writeTokSwap w)
  else if o = 0x6018 then some (s.checked o (decide (fld w 0 15 = 0)) fun s => { s with tok := { s.tok with mspill := fld w 0 40 } })
  else none

def State.wrText (s : State) (o : Nat) (w : Word) : Option State :=
  if o = 0x7000 then some (s.gated [(s.txt.en, bitAt w 0), (s.txt.pinEn, bitAt w 1)] fun s =>
    let u := edgeM s.tally
    let x := s.txt
    let s := (s.lagged .txt x.en (bitAt w 0) u).lagged .pin x.pinEn (bitAt w 1) u
    { s with txt := { x with en := bitAt w 0, pinEn := bitAt w 1 } })
  else if o = 0x7010 then some (s.writeTxtFence w)
  else if o = 0x7018 then some (s.checked o (!s.txt.en && decide (fld w 0 27 = 0)) fun s =>
    { s with txt := { s.txt with viewBase := fld w 0 40 } })
  else none

def State.wrClassifier (s : State) (o : Nat) (w : Word) : Option State :=
  if o = 0x8000 then some (s.gated [(s.cls.en, bitAt w 0)] fun s =>
    let s := s.lagged .cls s.cls.en (bitAt w 0) (edgeA s.tally)
    { s with cls := { s.cls with en := bitAt w 0 } })
  else if o = 0x8010 then some (s.writeClsSwap w)
  else if o = 0x8018 then some (s.checked o (decide (fld w 0 16 ≤ 32768)) fun s => { s with cls := { s.cls with pinmax := fld w 0 16 } })
  else if o = 0x8028 then some (s.writeClsGold w)
  else none

def State.wrTrees (s : State) (o : Nat) (w : Word) : Option State :=
  if o = 0x9000 then some (s.gated [(s.tre.en, bitAt w 0), (s.tre.fen, bitAt w 1)] fun s =>
    let u := edgeA s.tally
    let r := s.tre
    let s := ((s.lagged .tre r.en (bitAt w 0) u).lagged .fen r.fen (bitAt w 1) u).lagged .test r.test (bitAt w 2) u
    { s with tre := { r with en := bitAt w 0, fen := bitAt w 1, test := bitAt w 2 } })
  else if o = 0x9010 then some (s.writeTreSwap w)
  else if o = 0x9018 then some (s.writeFstFence w)
  else if o = 0x9020 then some (s.checked o (decide (fld w 0 14 ≤ 8192)) fun s => { s with tre := { s.tre with pinmax := fld w 0 14 } })
  else if o = 0x9030 then some (s.writeTreGold w)
  else none

def State.wrRamp (s : State) (o : Nat) (w : Word) : Option State :=
  if o = 0xA000 then some (s.writeRampCtl w)
  else if o = 0xA008 then some { s with ramp := { s.ramp with level := fld w 0 21 } }
  else none

/-- VY_MEM_CTL (13 R309): WIN only while EN = 0; a value out of range is ignored and counted. What waited for EN = 1 takes effect, in
order, and states that have come in whole are received. -/
def State.writeMemCtl (s : State) (w : Word) : State :=
  s.gated [(s.mem.en, bitAt w 0)] fun s =>
    let n := fld w 1 10
    let ok := decide (1 ≤ n) && decide (n ≤ 512)
    let s' := { s with mem := { s.mem with en := bitAt w 0, win := if !s.mem.en && ok then n else s.mem.win } }
    let s' := if !s.mem.en && bitAt w 0 then (s'.resume s.tally).receiveDone s.tally else s'
    if !s.mem.en && !ok then s'.ignored 12 else s'

def State.wrMemory (s : State) (o : Nat) (w : Word) : Option State :=
  if o = 0xB000 then some (s.writeMemCtl w)
  else if o = 0xB010 then some { s with mem := { s.mem with sel := fld w 0 10 } }
  else if o = 0xB018 then some (s.writeD0 w)
  else if o = 0xB020 then some (s.writeD1 w)
  else if o = 0xB030 then some (s.writeSc w)
  else none

def State.wrFerry (s : State) (o : Nat) (w : Word) : Option State :=
  if o = 0xC000 then some (s.writeFryCtl w)
  else if o = 0xC010 then some (s.writeFrySwap w)
  else if o = 0xC018 then some { s with fry := { s.fry with txeq := w.setWidth 30 } }
  else if o = 0xC020 then some (s.checked o (decide (fld w 0 32 = 0)) fun s => { s with fry := { s.fry with mirbase := fld w 0 40 } })
  else none

def State.wrWatch (s : State) (o : Nat) (w : Word) : Option State :=
  if o = 0xD000 then some { s with wch := { s.wch with recEn := bitAt w 0, ceNote := bitAt w 1 } }
  else if o = 0xD008 then
    let n := fld w 0 21
    some (s.checked o (decide (1000 ≤ n) && decide (n ≤ 2000000)) fun s => { s with wch := { s.wch with reclim := n } })
  else if o = 0xD018 then some (s.checked o (decide (fld w 0 26 = 0) && !(s.epochs.any fun x => x.2.2.live)) fun s =>
    { s with wch := { s.wch with shadow := fld w 0 40 } })
  else if o = 0xD040 then some (s.writeLogCtl w)
  else none

def State.wrCounters (s : State) (o : Nat) (w : Word) : Option State :=
  if o < 0xFF00 then
    let k := (o % 256) / 8
    let b := (o - 0xF000) / 256
    some (if k < 16 then s.writeCnt b k w else s.writeSel b (k % 16) w)
  else if o = 0xFF00 then some (s.writeCntCtl w)
  else if o = 0xFF08 then some (s.clearBanks w)
  else if o = 0xFF10 then some (s.writeRing w)
  else if o = 0xFF18 then some (s.writePeriod w)
  else none

/-- A slot word: of the inactive bank, or of either while there is no active one (08 R170, R184). -/
def State.writeSlot (s : State) (o : Nat) (w : Word) : State :=
  let k := slotOf o
  let c := s.ttc k.1
  s.checked o (!c.av || decide (c.active ≠ k.2.1)) fun s =>
    s.setTtc k.1 { c with words := Tab.set c.words (nb k.2.1 * 256 + k.2.2) (BitVec.ofNat 64 (fld w 0 28)) }

/-- Does every live epoch of a domain name a PVOCAB (04 R87)? -/
def Domain.allPvocab (d : Domain) : Bool :=
  (d.ep0.toList ++ d.ep1.toList).all fun e => !e.live || e.pvocab.isSome

def State.wrDomain (s : State) (o : Nat) (w : Word) : Option State :=
  let n := (o - 0x20000) / 256
  let d := s.domOf n
  let f := o % 256
  if f = 0x20 then some (s.checked o (rampOk d.nonenf (rampSetOf w)) fun s => s.setDom n { d with ramp := rampSetOf w })
  else if f = 0x28 then some (s.checked o (decide (1 ≤ fld w 0 8) && (!bitAt w 9 || d.allPvocab)) fun s =>
    s.setDom n { d with pmax := fld w 0 8, formB := bitAt w 8, formT := bitAt w 9 })
  else if f = 0x30 then some (s.checked o (decide (fld w 0 17 ≤ 65536)) fun s => s.setDom n { d with quota := fld w 0 17 })
  else if f = 0x40 then some (s.checked o (decide (fld w 16 7 ≤ 64)) fun s =>
    s.setDom n { d with dclass := fld w 0 4, jobmax := fld w 16 7 })
  else none

/-- The effect of a write to a register that may be written. -/
def State.writable (s : State) (o : Nat) (w : Word) : Option State :=
  if o < 0x1000 then none
  else if o < 0x2000 then (if o = 0x1020 then some (s.writeRst w) else none)
  else if o < 0x3000 then s.wrLanding o w
  else if o < 0x4000 then s.wrManifest o w
  else if o < 0x5000 then s.wrDispatcher o w
  else if o < 0x6000 then (if o = 0x5008 then some (s.writePilSwap w) else none)
  else if o < 0x7000 then s.wrToken o w
  else if o < 0x8000 then s.wrText o w
  else if o < 0x9000 then s.wrClassifier o w
  else if o < 0xA000 then s.wrTrees o w
  else if o < 0xB000 then s.wrRamp o w
  else if o < 0xC000 then s.wrMemory o w
  else if o < 0xD000 then s.wrFerry o w
  else if o < 0xE000 then s.wrWatch o w
  else if o < 0xF000 then (if o = 0xE008 then some (s.disarm w) else none)
  else if o < 0x10000 then s.wrCounters o w
  else if o < 0x14000 then some (s.writeSlot o w)
  else if 0x20000 ≤ o ∧ o < 0x30000 then s.wrDomain o w
  else none

/-- A write: its register's effect, a count for a read-only register (R359) or for an offset without one (R7). -/
def State.writeReg (s : State) (o : Nat) (w : Word) : State :=
  match s.writable o w with
  | some s' => s'
  | none => if (s.readReg o).isSome ∨ o = 0x2088 then s.ignored (regBank o) else s.badReg

/-- Register word `off` of the window stands at byte offset 8 * off (R5). A write that starts a SOFT reset is not answered. -/
def execRegWrite (t : Stamp) (off : BitVec 17) (data : Word) (s : State) : Out :=
  let s := s.upTo t 0
  if !s.alive || !s.portFree then .next s
  else
    let s' := s.writeReg (8 * off.toNat) data
    if s'.alive then .next (s'.respond 0) else .next s'

def execBadRegAccess (t : Stamp) (write : Bool) (off : BitVec 17) (data : Word) (s : State) : Out :=
  let s := s.upTo t 0
  if !s.alive || !s.portFree then .next s
  else
    let q := if write then (s.writeReg (8 * off.toNat) data, 0) else s.access' (8 * off.toNat)
    if q.1.alive then .next (q.1.respond q.2) else .next q.1

end Sys2Proof.Machine
end

