-- ==== Sys2Proof/Machine/Dispatch.lean ====
section
/-! DEFINITION. Dispatch.lean: one arm per command, each one call of its meaning. -/

namespace Sys2Proof.Machine

/-- The effect of a command on everything but the queue. -/
def exec (i : Instr) (s : State) : Host.Outcome State Fault Refusal :=
  match i with
  | .token t lane handle tok resv => Sys2Proof.Machine.execToken t lane handle tok resv s
  | .node t lane handle tok node parent root resv => Sys2Proof.Machine.execNode t lane handle tok node parent root resv s
  | .accept t lane handle node noneBit resv => Sys2Proof.Machine.execAccept t lane handle node noneBit resv s
  | .prime t lane handle resv => Sys2Proof.Machine.execPrime t lane handle resv s
  | .maskRead t chan id gen line => Sys2Proof.Machine.execMaskRead t chan id gen line s
  | .promptIn t w => Sys2Proof.Machine.execPromptIn t w s
  | .tokenOutWord t lane => Sys2Proof.Machine.execTokenOutWord t lane s
  | .verdictOutWord t => Sys2Proof.Machine.execVerdictOutWord t s
  | .memoryRequest t port => Sys2Proof.Machine.execMemoryRequest t port s
  | .memoryResponse t port write tag data pois err => Sys2Proof.Machine.execMemoryResponse t port write tag data pois err s
  | .closeTime t idx => Sys2Proof.Machine.execCloseTime t idx s
  | .deadlineExpiry t idx => Sys2Proof.Machine.execDeadlineExpiry t idx s
  | .promptDeadlineExpiry t idx => Sys2Proof.Machine.execPromptDeadlineExpiry t idx s
  | .release t idx => Sys2Proof.Machine.execRelease t idx s
  | .graphStart t => Sys2Proof.Machine.execGraphStart t s
  | .dependenceResolve t inst => Sys2Proof.Machine.execDependenceResolve t inst s
  | .jobPlace t => Sys2Proof.Machine.execJobPlace t s
  | .slotBoundary t cls => Sys2Proof.Machine.execSlotBoundary t cls s
  | .bankSwitch t cls => Sys2Proof.Machine.execBankSwitch t cls s
  | .overrun t slot => Sys2Proof.Machine.execOverrun t slot s
  | .holdlim t slot => Sys2Proof.Machine.execHoldlim t slot s
  | .callStart t cls => Sys2Proof.Machine.execCallStart t cls s
  | .callComplete t slot call => Sys2Proof.Machine.execCallComplete t slot call s
  | .viewBuild t builder => Sys2Proof.Machine.execViewBuild t builder s
  | .semGrant t dom sem => Sys2Proof.Machine.execSemGrant t dom sem s
  | .creditGrant t pool => Sys2Proof.Machine.execCreditGrant t pool s
  | .alu t slot f x => Sys2Proof.Machine.execAlu t slot f x s
  | .addi t slot f x => Sys2Proof.Machine.execAddi t slot f x s
  | .andi t slot f x => Sys2Proof.Machine.execAndi t slot f x s
  | .ori t slot f x => Sys2Proof.Machine.execOri t slot f x s
  | .xori t slot f x => Sys2Proof.Machine.execXori t slot f x s
  | .shi t slot f x => Sys2Proof.Machine.execShi t slot f x s
  | .muldiv t slot f x => Sys2Proof.Machine.execMuldiv t slot f x s
  | .li t slot f x => Sys2Proof.Machine.execLi t slot f x s
  | .lih t slot f x => Sys2Proof.Machine.execLih t slot f x s
  | .extr t slot f x => Sys2Proof.Machine.execExtr t slot f x s
  | .cmp t slot f x => Sys2Proof.Machine.execCmp t slot f x s
  | .cmpi t slot f x => Sys2Proof.Machine.execCmpi t slot f x s
  | .plog t slot f x => Sys2Proof.Machine.execPlog t slot f x s
  | .fpu t slot f x => Sys2Proof.Machine.execFpu t slot f x s
  | .fcmp t slot f x => Sys2Proof.Machine.execFcmp t slot f x s
  | .ld t slot f x => Sys2Proof.Machine.execLd t slot f x s
  | .lds t slot f x => Sys2Proof.Machine.execLds t slot f x s
  | .st t slot f x => Sys2Proof.Machine.execSt t slot f x s
  | .ldm t slot f x => Sys2Proof.Machine.execLdm t slot f x s
  | .mapw t slot f x => Sys2Proof.Machine.execMapw t slot f x s
  | .post t slot f x => Sys2Proof.Machine.execPost t slot f x s
  | .skipTasks t slot f x => Sys2Proof.Machine.execSkipTasks t slot f x s
  | .rds t slot f x => Sys2Proof.Machine.execRds t slot f x s
  | .br t slot f x => Sys2Proof.Machine.execBr t slot f x s
  | .jal t slot f x => Sys2Proof.Machine.execJal t slot f x s
  | .matchCall t slot f x => Sys2Proof.Machine.execMatchCall t slot f x s
  | .xlate t slot f x => Sys2Proof.Machine.execXlate t slot f x s
  | .feature t slot f x => Sys2Proof.Machine.execFeature t slot f x s
  | .treeCall t slot f x => Sys2Proof.Machine.execTreeCall t slot f x s
  | .classify t slot f x => Sys2Proof.Machine.execClassify t slot f x s
  | .wait t slot f x => Sys2Proof.Machine.execWait t slot f x s
  | .verdict t slot f x => Sys2Proof.Machine.execVerdict t slot f x s
  | .vmerge t slot f x => Sys2Proof.Machine.execVmerge t slot f x s
  | .semacq t slot f x => Sys2Proof.Machine.execSemacq t slot f x s
  | .semrel t slot f x => Sys2Proof.Machine.execSemrel t slot f x s
  | .cracq t slot f x => Sys2Proof.Machine.execCracq t slot f x s
  | .crrel t slot f x => Sys2Proof.Machine.execCrrel t slot f x s
  | .yield t slot f x => Sys2Proof.Machine.execYield t slot f x s
  | .note t slot f x => Sys2Proof.Machine.execNote t slot f x s
  | .salmFence t slot f x => Sys2Proof.Machine.execSalmFence t slot f x s
  | .trap t slot w x => Sys2Proof.Machine.execTrap t slot w x s
  | .endJob t slot f x => Sys2Proof.Machine.execEndJob t slot f x s
  | .lndCqpush t data => Sys2Proof.Machine.execLndCqpush t data s
  | .lndNqpop t => Sys2Proof.Machine.execLndNqpop t s
  | .cmdGap t => Sys2Proof.Machine.execCmdGap t s
  | .fence t => Sys2Proof.Machine.execFence t s
  | .echo t => Sys2Proof.Machine.execEcho t s
  | .admitReq t => Sys2Proof.Machine.execAdmit t s
  | .cancel t => Sys2Proof.Machine.execCancel t s
  | .retire t => Sys2Proof.Machine.execRetire t s
  | .migrateOut t => Sys2Proof.Machine.execMigrateOut t s
  | .migrateIn t => Sys2Proof.Machine.execMigrateIn t s
  | .reuse t => Sys2Proof.Machine.execReuse t s
  | .domOpen t => Sys2Proof.Machine.execDomOpen t s
  | .domClose t => Sys2Proof.Machine.execDomClose t s
  | .imgLoad t => Sys2Proof.Machine.execImgLoad t s
  | .imgActivate t => Sys2Proof.Machine.execImgActivate t s
  | .imgRetire t => Sys2Proof.Machine.execImgRetire t s
  | .ttSwitch t => Sys2Proof.Machine.execTtSwitch t s
  | .unitFence t => Sys2Proof.Machine.execUnitFence t s
  | .inject t => Sys2Proof.Machine.execInject t s
  | .snapshot t => Sys2Proof.Machine.execSnapshot t s
  | .logRead t => Sys2Proof.Machine.execLogRead t s
  | .logArm t => Sys2Proof.Machine.execLogArm t s
  | .logErase t => Sys2Proof.Machine.execLogErase t s
  | .imgLoadDone t load => Sys2Proof.Machine.execImgLoadDone t load s
  | .handOver t idx => Sys2Proof.Machine.execHandOver t idx s
  | .migOutTimeout t idx => Sys2Proof.Machine.execMigOutTimeout t idx s
  | .migrateInDone t idx => Sys2Proof.Machine.execMigrateInDone t idx s
  | .migrateInTimeout t idx => Sys2Proof.Machine.execMigrateInTimeout t idx s
  | .reuseDone t idx => Sys2Proof.Machine.execReuseDone t idx s
  | .replayTransfer t lane idx => Sys2Proof.Machine.execReplayTransfer t lane idx s
  | .snapshotWritten t => Sys2Proof.Machine.execSnapshotWritten t s
  | .autoSnapshot t => Sys2Proof.Machine.execAutoSnapshot t s
  | .logReadDone t => Sys2Proof.Machine.execLogReadDone t s
  | .logEraseDone e => Sys2Proof.Machine.execLogEraseDone e s
  | .logArmWindowEnd t => Sys2Proof.Machine.execLogArmWindowEnd t s
  | .injection t => Sys2Proof.Machine.execInjection t s
  | .injectionLapse t => Sys2Proof.Machine.execInjectionLapse t s
  | .detectorTrip t code inst place corrected => Sys2Proof.Machine.execDetectorTrip t code inst place corrected s
  | .blockReset t => Sys2Proof.Machine.execBlockReset t s
  | .swapped t kind num => Sys2Proof.Machine.execSwapped t kind num s
  | .repairDone t => Sys2Proof.Machine.execRepairDone t s
  | .goldenRunDone t trees bad => Sys2Proof.Machine.execGoldenRunDone t trees bad s
  | .restoreEnd t idx => Sys2Proof.Machine.execRestoreEnd t idx s
  | .recoveryLimit t idx => Sys2Proof.Machine.execRecoveryLimit t idx s
  | .ferryLinkPacket t group p peer credits swap => Sys2Proof.Machine.execFerryLinkPacket t group p peer credits swap s
  | .offer t group p xfer dom src epoch h bytes => Sys2Proof.Machine.execOffer t group p xfer dom src epoch h bytes s
  | .state t group p xfer payload => Sys2Proof.Machine.execState t group p xfer payload s
  | .stateEnd t group p xfer crc => Sys2Proof.Machine.execStateEnd t group p xfer crc s
  | .ack t group p xfer => Sys2Proof.Machine.execAck t group p xfer s
  | .nak t group p xfer len reason last => Sys2Proof.Machine.execNak t group p xfer len reason last s
  | .mirror t group p idx off payload => Sys2Proof.Machine.execMirror t group p idx off payload s
  | .beat t group p => Sys2Proof.Machine.execBeat t group p s
  | .beatSend t group => Sys2Proof.Machine.execBeatSend t group s
  | .peerLost t group => Sys2Proof.Machine.execPeerLost t group s
  | .trainingPhaseTimeout t group => Sys2Proof.Machine.execTrainingPhaseTimeout t group s
  | .offerTimeout t group xfer => Sys2Proof.Machine.execOfferTimeout t group xfer s
  | .xferTimeout t idx => Sys2Proof.Machine.execXferTimeout t idx s
  | .coalesceWindowEnd t => Sys2Proof.Machine.execCoalesceWindowEnd t s
  | .logRecordWrite e => Sys2Proof.Machine.execLogRecordWrite e s
  | .sectorErase e => Sys2Proof.Machine.execSectorErase e s
  | .logMount t data => Sys2Proof.Machine.execLogMount t data s
  | .powerFailWarning e => Sys2Proof.Machine.execPowerFailWarning e s
  | .powerUp t => Sys2Proof.Machine.execPowerUp t s
  | .powerDown t => Sys2Proof.Machine.execPowerDown t s
  | .absent t strap => Sys2Proof.Machine.execAbsent t strap s
  | .arrayReset t => Sys2Proof.Machine.execArrayReset t s
  | .pgArrayRise t => Sys2Proof.Machine.execPgArrayRise t s
  | .pinReset t => Sys2Proof.Machine.execPinReset t s
  | .rstNRelease t blknum => Sys2Proof.Machine.execRstNRelease t blknum s
  | .pllLock t => Sys2Proof.Machine.execPllLock t s
  | .pllLockLoss t => Sys2Proof.Machine.execPllLockLoss t s
  | .gtStrobe t val => Sys2Proof.Machine.execGtStrobe t val s
  | .bistDone t lanes cores tiles engines fst text others => Sys2Proof.Machine.execBistDone t lanes cores tiles engines fst text others s
  | .softReset t data => Sys2Proof.Machine.execSoftReset t data s
  | .softResetEnd t => Sys2Proof.Machine.execSoftResetEnd t s
  | .tokSwap t data => Sys2Proof.Machine.execTokSwap t data s
  | .txtFence t data => Sys2Proof.Machine.execTxtFence t data s
  | .clsSwap t data => Sys2Proof.Machine.execClsSwap t data s
  | .clsGold t data => Sys2Proof.Machine.execClsGold t data s
  | .treSwap t data => Sys2Proof.Machine.execTreSwap t data s
  | .fstFence t data => Sys2Proof.Machine.execFstFence t data s
  | .treGold t data => Sys2Proof.Machine.execTreGold t data s
  | .peakClr t data => Sys2Proof.Machine.execPeakClr t data s
  | .ttClsSw t cls data => Sys2Proof.Machine.execTtClsSw t cls data s
  | .pilSwap t data => Sys2Proof.Machine.execPilSwap t data s
  | .scFlush t data => Sys2Proof.Machine.execScFlush t data s
  | .rgnD0Write t data => Sys2Proof.Machine.execRgnD0Write t data s
  | .rgnD1Write t data => Sys2Proof.Machine.execRgnD1Write t data s
  | .frySwap t data => Sys2Proof.Machine.execFrySwap t data s
  | .fryTrainingStart t data => Sys2Proof.Machine.execFryTrainingStart t data s
  | .lndFlushCq t data => Sys2Proof.Machine.execLndFlushCq t data s
  | .lndFlushNq t data => Sys2Proof.Machine.execLndFlushNq t data s
  | .manData0Read t => Sys2Proof.Machine.execManData0Read t s
  | .injDisarm t data => Sys2Proof.Machine.execInjDisarm t data s
  | .cntClr t data => Sys2Proof.Machine.execCntClr t data s
  | .badRegAccess t write off data => Sys2Proof.Machine.execBadRegAccess t write off data s
  | .regWrite t off data => Sys2Proof.Machine.execRegWrite t off data s
  | .badOp t => Sys2Proof.Machine.execBadOp t s
  | .trainingPhaseComplete t group => Sys2Proof.Machine.execTrainingPhaseComplete t group s
  | .logMounted t ok bytes => Sys2Proof.Machine.execLogMounted t ok bytes s
  | .writeTimeExceeded t => Sys2Proof.Machine.execWriteTimeExceeded t s
  | .wrapperInstructionUpdate t w => Sys2Proof.Machine.execWrapperInstructionUpdate t w s
  | .bsMode t b => Sys2Proof.Machine.execBsMode t b s

end Sys2Proof.Machine
end

