-- ==== Sys2Proof/Machine/Step.lean ====
section
/-! DEFINITION. Step.lean: a step takes the command at the front of the queue (log entry 1). -/

namespace Sys2Proof.Machine

/-- Run the command at the front on the state with the queue's rest; an empty queue idles. -/
def step (s : State) : Host.Outcome State Fault Refusal :=
  match s.pending with
  | [] => .next s
  | c :: r => exec c { s with pending := r }

/-- The command that a table word spells, put at the front; no row gives bits, so the state is unchanged. -/
def State.withFetchWord (s : State) (nbits w : Nat) : State :=
  match decodeTableWord nbits w with
  | some i => { s with pending := i :: s.pending }
  | none => s

end Sys2Proof.Machine
end

