-- ==== Sys2Proof/Machine/Boundary.lean ====
section
/-! DEFINITION. Boundary.lean: what the block drives at its boundary (12 R264-R286): the port clocks, the synchronous outputs cycle by
cycle, ALIVE, the NVM pins and the Ferry transmitters, read from the state. -/

namespace Sys2Proof.Machine

/-! ### Conditions of the boundary (R285) -/

/-- A reset that clears the boundary is in progress. An ARRAY reset is none of the three conditions (R281). -/
def State.inReset (s : State) : Bool :=
  !s.clk.rstN || decide (s.clk.phase = .reset) || decide (s.clk.phase = .bist) || decide (s.clk.phase = .blockReset) ||
    decide (s.clk.phase = .softLog)

/-- Absent, unpowered or in reset: the isolation cells force the values of R286. -/
def State.isolated (s : State) : Bool := !s.powered || s.inReset

/-! ### Port clocks (R264, R286) -/

/-- Do CK_G, CK_M and CK_L run? Otherwise they are held low. -/
def State.clocksRun (s : State) : Bool := s.powered && s.clk.lock

/-- Does a port clock of k GCLK a period rise at tally u: CK_G with k = 1, CK_M with 2, CK_L with 3 (15 R342)? -/
def State.clockRises (s : State) (k : Nat) (u : Stamp) : Bool := s.clocksRun && decide (u % k = 0)

/-! ### Synchronous outputs (R265-R275). A value is that of the cycle which ends at an edge e of the port's clock. -/

def sigWidth : OutSig → Nat
  | .moData _ => 256
  | .mrsData _ => 512
  | .toData _ => 96
  | .voData => 128
  | .mqAddr _ => 33
  | .mqTag _ => 8
  | .mqWdata _ => 1024
  | .mqBe _ => 128
  | .mqWpois _ => 16
  | .cnRdata => 64
  | _ => 1

/-- The descriptor of Mask Out, driven during [t+11, t+12) (R267). -/
def State.moNow (s : State) (n : Nat) (e : Stamp) : Option (BitVec 256) :=
  if e = 0 then none else drivenAt (e - 1) (Tab.getD s.pins.maskOut n [])

/-- The Mask Read response: OK and the line, driven during [a+3, a+4). -/
def State.mrsNow (s : State) (n : Nat) (e : Stamp) : Option (Bool × BitVec 512) := drivenAt e (Tab.getD s.pins.maskRsp n [])

/-- The word that Token Out presents: one that transfers at e, or the lane's first, from the edge at which it may (R265, R268). -/
def State.toNow (s : State) (n : Nat) (e : Stamp) : Option (BitVec 96) :=
  match drivenAt e (Tab.get s.pins.toWord n).toList with
  | some w => some w
  | none =>
    if !s.rampEn then none
    else (s.ramp.outq.find? fun w => decide (w.lane = n)).bind fun w => if w.since ≤ e then some w.word else none

/-- The word that Verdict Out presents (R270). -/
def State.voNow (s : State) (e : Stamp) : Option (BitVec 128) :=
  match drivenAt e s.pins.voWord.toList with
  | some w => some w
  | none =>
    if !s.rampEn then none else s.ramp.voq.head?.bind fun w => if w.1 + 2 ≤ e then some w.2 else none

/-- The request that a memory port presents, with its tag (R271, R272; 13 R287). -/
def State.mqNow (s : State) (p : Nat) (e : Stamp) : Option (Nat × MReq) :=
  let x := s.port p
  match drivenAt e (x.shown.map fun q => (edgeUp 2 q.1, q.2)).toList with
  | some q => some q
  | none =>
    if !s.mem.en || decide (x.out.length ≥ 256) then none
    else x.waitq.head?.bind fun q => if s.reqOk q then some (x.tag, q) else none

/-- The response of the control network (R274). -/
def State.cnNow (s : State) (e : Stamp) : Option Word := drivenAt e s.pins.cnData

/-- What the block's own logic drives in service. READY of Token In is that of a lane to which no word is presented. -/
def State.func (s : State) (e : Stamp) : OutSig → Nat
  | .tiReady n => nb (s.laneReady n e)
  | .moValid n => nb (s.moNow n e).isSome
  | .moData n => ((s.moNow n e).getD 0).toNat
  | .mrqReady _ => 1
  | .mrsValid n => nb (s.mrsNow n e).isSome
  | .mrsOk n => nb ((s.mrsNow n e).getD (false, 0)).1
  | .mrsData n => ((s.mrsNow n e).getD (false, 0)).2.toNat
  | .toValid n => nb (s.toNow n e).isSome
  | .toData n => ((s.toNow n e).getD 0).toNat
  | .piReady => nb s.pinEn
  | .voValid => nb (s.voNow e).isSome
  | .voData => ((s.voNow e).getD 0).toNat
  | .mqValid p => nb (s.mqNow p e).isSome
  | .mqWrite p => ((s.mqNow p e).map fun q => nb q.2.write).getD 0
  | .mqAddr p => ((s.mqNow p e).map fun q => q.2.line / 128 % 2 ^ 33).getD 0
  | .mqTag p => ((s.mqNow p e).map fun q => q.1 % 256).getD 0
  | .mqWdata p => ((s.mqNow p e).map fun q => if q.2.write then q.2.data.toNat else 0).getD 0
  | .mqBe p => ((s.mqNow p e).map fun q => if q.2.write then q.2.be.toNat else 0).getD 0
  | .mqWpois p => ((s.mqNow p e).map fun q => if q.2.write then q.2.wpois.toNat else 0).getD 0
  | .msReady _ => 1
  | .cnReady => nb (decide (s.lnd.busyAt ≠ some e) || (s.cnNow (e + 12)).isSome)
  | .cnRvalid => nb (s.cnNow e).isSome
  | .cnRdata => ((s.cnNow e).getD 0).toNat
  | .irq => nb (s.pins.irq.any fun u => decide (u + 3 = e))

/-- A wrapper cell's value (R283). -/
def State.cell (s : State) (x : OutSig) : Nat :=
  ((s.clk.wcells.find? fun c => decide (c.1 = x)).map fun c => c.2 % 2 ^ sigWidth x).getD 0

/-- The value of an output: zero in the three conditions of R285, where the isolation cells act (R286); the wrapper's cell outside
WS_BYPASS (R283); zero in an ARRAY reset and after a block failure (R281; 14 R318); else what the block drives. -/
def State.out (s : State) (e : Stamp) (x : OutSig) : Nat :=
  if s.isolated then 0
  else if s.clk.wrapper ≠ .bypass then s.cell x
  else if s.alive then s.func e x else 0

/-! ### NVM pins (R280, R284, R286) -/

/-- Who drives the NVM pins. -/
inductive NvmPins where
  | highZ
  | logbook
  | cells (w : BitVec 12)
deriving DecidableEq, Repr

def State.nvmPins (s : State) : NvmPins :=
  if !s.powered then .highZ
  else if s.clk.bsMode then .cells s.clk.bsCells
  else if s.watchRuns && s.nvmCase then .logbook else .highZ

/-! ### Serial test outputs (R283, R284, R286) -/

/-- WSO: driven from the wrapper in a shift state alone, also in a reset. -/
def State.wso (s : State) : Bool := s.powered && s.clk.wshift && (s.clk.wser.head?.getD false)

/-- BS_SO: follows BS_SI while the block is absent or unpowered, else the chain's last stage. -/
def State.bsSo (s : State) (si : Bool) : Bool := if s.powered then s.clk.bsShift.getLsbD 0 else si

def inWidth : InSig → Nat
  | .tiData _ => 96
  | .mrqId _ => 16
  | .mrqGen _ => 8
  | .mrqLine _ => 9
  | .piData => 576
  | .msTag _ => 8
  | .msData _ => 1024
  | .msPois _ => 16
  | .cnAddr => 17
  | .cnWdata => 64
  | _ => 1

/-- The value of an input's wrapper cell. -/
def State.inCell (s : State) (x : InSig) : Nat :=
  ((s.clk.winputs.find? fun c => decide (c.1 = x)).map fun c => c.2 % 2 ^ inWidth x).getD 0

/-! ### Ferry transmitters (R278, R286; 13 R303, R309) -/

/-- Is a physical lane's transmitter out of electrical idle? The wrapper holds no cell of a lane (R283), so the link runs on behind it. -/
def State.fyDriven (s : State) (lane : Nat) : Bool :=
  s.running && s.fry.en && (match s.numberOf 6 lane with
    | some n => decide ((s.group (s.groupOfLane n)).phase ≠ .down)
    | none => false)

end Sys2Proof.Machine
end

