-- ==== Sys2Proof/Safety.lean ====
section
/-! DEFINITION. Safety.lean: what counts as a sound state, and the shapes in which the statements say what a command does:
that it completes, what it leaves unchanged, and when a Salm instruction issues. -/

namespace Sys2Proof.Machine

/-- The outcome is a next state. -/
def Answers (o : Host.Outcome State Fault Refusal) : Prop := ∃ t, o = .next t

/-- The outcome is a next state of which P holds. -/
def Completes (o : Host.Outcome State Fault Refusal) (P : State → Prop) : Prop := ∃ v, o = .next v ∧ P v

/-- Node memory stands in its canonical form, so that equal memories are equal lists (log entry 4). -/
def State.MemSound (s : State) : Prop := memWf s.mem.bytes = true

/-- Every open command was accepted before the number that the next one gets, so that a completion finds its own command. -/
def State.CmdsSound (s : State) : Prop := ∀ o, o ∈ s.lnd.opens → o.id < s.lnd.nextId

/-- The keys of a sparse table rise, so that each is listed once. -/
def Rising {α : Type} (t : Tab α) : Prop := t.Pairwise fun a b => a.1 < b.1

/-- The tables that the block walks through list each job slot, entry and instance once. -/
def State.TabsSound (s : State) : Prop := Rising s.pil.slots ∧ Rising s.man.entries ∧ Rising s.dsp.insts

/-- The invariant that every step keeps. -/
def State.Sound (s : State) : Prop := s.MemSound ∧ s.CmdsSound

/-- The byte of node memory at a block address. -/
def State.byte (s : State) (a : Nat) : Byte := memGet s.mem.bytes a

/-- Every byte of node memory outside [a, a+n) reads as before. -/
def MemSame (u v : State) (a n : Nat) : Prop := ∀ k, k < a ∨ a + n ≤ k → v.byte k = u.byte k

/-! ### Salm instructions (09 R200, R201; 10 R207) -/

/-- The job j of a slot issues the word: it is not suspended, the whole instruction lies in the program, its guard holds, no outstanding
call or load holds a register it reads, and no outstanding call one it writes. -/
def State.Issues (u : State) (slot : Nat) (j : Job) (f : BitVec 26) (g : Nat × Bool) (reads writes : List Nat) : Prop :=
  u.running = true ∧ u.job slot = some j ∧ j.wait = .no ∧ j.pc + ilen f ≤ 4 * j.nword ∧ j.pred g.1 ≠ g.2 ∧
    (∀ r, r ∈ reads → j.busy r = false) ∧ ∀ r, r ∈ writes → j.busyWr r = false

/-- The job j of a slot takes an issue cycle for the word: it is not suspended, and the whole instruction lies in the program. -/
def State.AtWord (u : State) (slot : Nat) (j : Job) (f : BitVec 26) : Prop :=
  u.running = true ∧ u.job slot = some j ∧ j.wait = .no ∧ j.pc + ilen f ≤ 4 * j.nword

/-- The encodings of an opcode that are not ILLEGAL (R203, R204, R207 and the opcode's own rule, R209 to R238): fields that an
instruction does not use are zero, its function code and flags are defined, X is set only where it is permitted. An opcode marked — has
none. -/
def legalForm (op : BitVec 6) (f : BitVec 26) : Bool :=
  let d := fGD f
  let a := fGA f
  let b := fGB f
  let n := fFN f
  let x := fX f
  let second := !x || decide (b = 0)
  match op.toNat with
  | 0x01 => second && decide (n < 0x10) && (decide (n < 0x0D) || (!x && decide (b = 0)))
  | 0x06 => !x && decide ((f.extractLsb' 6 5).toNat < 3)
  | 0x07 => second && decide (n < 7)
  | 0x08 => decide (a = 0)
  | 0x09 => decide (a = 0)
  | 0x0A => !x
  | 0x0B => second && decide (n < 7) && decide (d < 8)
  | 0x0D => !x && decide (n < 5) && decide (d < 8) && decide (a < 8) && decide (b < 8) && (decide (n ≠ 4) || decide (b = 0))
  | 0x0E => second && decide (n < 0x0D) && (!decide (n ∈ [4, 7, 8, 9, 10, 11, 12]) || (!x && decide (b = 0)))
  | 0x0F => second && decide (n < 4) && decide (d < 8)
  | 0x14 => !x && decide (d = 0) && decide (n = 0)
  | 0x15 => !x && decide (d = 0) && decide (b = 0) && decide (n = 0)
  | 0x16 => !x && decide (d = 0) && decide (b = 0) && decide (n = 0)
  | 0x17 => !x && decide (a = 0) && decide (b = 0) && decide (n < 4)
  | 0x18 => !x
  | 0x19 => second && decide (n = 0)
  | 0x20 => !x && decide (n < 2)
  | 0x21 => !x && decide (n < 2)
  | 0x22 => !x && decide (n < 2)
  | 0x23 => !x && decide (n < 2)
  | 0x24 => !x && decide (n < 4)
  | 0x28 => (!x || decide (a = 0)) && decide (d = 0) && decide (b = 0) && decide (n = 0)
  | 0x29 => second && decide (n = 0)
  | 0x2C => !x && decide (b = 0) && decide (n = 0)
  | 0x2D => !x && decide (d = 0) && decide (b = 0) && decide (n = 0)
  | 0x2E => !x && decide (n = 0)
  | 0x2F => !x && decide (d = 0) && decide (n = 0)
  | 0x30 => (!x || decide (a = 0)) && decide (d = 0) && decide (b = 0) && decide (n = 0)
  | 0x31 => !x && decide (d = 0) && decide (b = 0)
  | 0x25 => !x && decide (d = 0) && decide (a = 0) && decide (b = 0) && decide (n = 0)
  | 0x32 => !x && decide (d = 0) && decide (a = 0) && decide (b = 0) && decide (n = 0)
  | 0x33 => !x && decide (d = 0) && decide (a = 0) && decide (b = 0) && decide (n = 0)
  | 0x3F => !x && decide (d = 0) && decide (a = 0) && decide (b = 0) && decide (n = 0)
  | _ => !trapOk op

/-- From u to v only the job of the slot, now j', and the event counts differ; the slot's scratch stands. -/
def OnlyJob (u v : State) (slot : Nat) (j' : Job) : Prop :=
  v.job slot = some j' ∧ (v.slot slot).gen = (u.slot slot).gen ∧ (v.slot slot).words = (u.slot slot).words ∧
    (∀ k, k ≠ slot → v.slot k = u.slot k) ∧ { v.pil with slots := u.pil.slots } = u.pil ∧
    { v with pil := u.pil, cnt := u.cnt } = u ∧ MemSame u v 0 0

/-- Registers after a write of one: it holds the value, unless it is g0, and every other register stands. -/
def RegsAfter (j j' : Job) (r : Nat) (val : Word) (pois : Bool) : Prop :=
  j'.reg 0 = ⟨0, false⟩ ∧ (r ≠ 0 → j'.reg r = ⟨val, pois⟩) ∧ ∀ k, k ≠ r → j'.reg k = j.reg k

/-- The instruction wrote val to gd and did nothing else but advance the PC and count its issue; what an earlier load returns for gd goes
nowhere (R195). -/
def WritesReg (u v : State) (slot : Nat) (j : Job) (f : BitVec 26) (val : Word) (pois : Bool) : Prop :=
  ∃ j', OnlyJob u v slot j' ∧ RegsAfter j j' (fGD f) val pois ∧ { j' with regs := j.regs, pc := j.pc } = j.overwrite [fGD f] ∧
    j'.pc = j.pc + ilen f ∧ v.cnt = (u.issuing slot).cnt

/-- The instruction set predicate p and did nothing else but advance the PC and count its issue; p0 stays true. -/
def WritesPred (u v : State) (slot : Nat) (j : Job) (f : BitVec 26) (p : Nat) (b : Bool) : Prop :=
  ∃ j', OnlyJob u v slot j' ∧ j'.pred 0 = true ∧ (p ≠ 0 → j'.pred p = b) ∧ (∀ k, k < 8 → k ≠ p → j'.pred k = j.pred k) ∧
    { j' with preds := j.preds, pc := j.pc } = j ∧ j'.pc = j.pc + ilen f ∧ v.cnt = (u.issuing slot).cnt

/-- The instruction changed nothing of its job but the PC and what `j'` says, besides the parts of the state that the rule names. -/
def Advances (j j' : Job) (f : BitVec 26) : Prop := { j' with pc := j.pc } = j ∧ j'.pc = j.pc + ilen f

/-- The instruction faulted its job with a program fault (09 R200) and had no effect of its own. -/
def FaultsWith (u v : State) (slot cause : Nat) : Prop := v = (u.issuing slot).jobFault slot cause 0 u.tally

/-- Guard of a Salm instruction by its opcode (R203, R204): format B and D, format C, formats A and E. -/
def guardOf (op : BitVec 6) (f : BitVec 26) : Nat × Bool :=
  if op ∈ [0x02#6, 0x03#6, 0x04#6, 0x05#6, 0x06#6, 0x08#6, 0x09#6, 0x0A#6, 0x0C#6, 0x10#6, 0x11#6, 0x12#6, 0x13#6] then guardB f
  else if op = 0x18#6 then guardC f
  else guardA f

/-- Everything outside the Pilot cores, the counters, the memory side and the free-value counter stands. -/
def OnlyPilotMem (u v : State) : Prop := { v with pil := u.pil, cnt := u.cnt, mem := u.mem, fresh := u.fresh } = u

/-! ### Commands through the Landing (11 R239, R240, R242) -/

/-- Word n of a cell. -/
def wordOf (m : CellWords) (n : Nat) : Word := (m[n]?).getD 0

/-- DOM of a command's header. -/
def domField (m : CellWords) : Nat := fld (wordOf m 0) 16 8

/-- A sound one-cell message m of opcode op stands whole at the head of the command queue, `rest` behind it; it is for this block,
and the decoder may accept it at this edge (R242). No message waits to enter the notice queue (R12). -/
def State.Heads (u : State) (op : Nat) (m : CellWords) (rest : List CqCell) : Prop :=
  u.alive = true ∧ u.lndEn = true ∧ u.portFree = true ∧ u.lnd.opens.length < 512 ∧ u.lnd.wait = [] ∧ u.CmdsSound ∧ u.lnd.cq = .cell m true 0 :: rest ∧
    fld (wordOf m 0) 0 8 = op ∧ fld (wordOf m 0) 8 2 = 0 ∧ fld (wordOf m 0) 10 6 = u.clk.blkNum ∧ fld (wordOf m 0) 24 4 = 0 ∧
    fld (wordOf m 0) 28 4 = 0 ∧ fld (wordOf m 0) 56 8 = 0

/-- The completion cell of a command: MSG 01, its OPCODE, DOM and TAG, STATUS, the command's stamp, the completing event's, W3 on
(R239, R240). -/
def completionCell (blk : Nat) (o : OpenCmd) (status : Nat) (done : Stamp) (ws : List Word) : NqCell :=
  ⟨padTo 8 ([pack 64 [(0, o.op), (8, 1), (10, blk), (16, o.dom % 256), (32, status), (40, o.tag)], BitVec.ofNat 64 o.stamp,
    BitVec.ofNat 64 done] ++ ws), true, true, false, false⟩

/-- The record of the command m accepted in u. -/
def acceptedCmd (u : State) (op : Nat) (m : CellWords) : OpenCmd :=
  ⟨u.lnd.nextId, op, fld (wordOf m 0) 40 16, domField m, u.tally, [], 0⟩

/-- The command was accepted and completed at its stamp: it has left the queue, no reservation of its own remains, and its completion
is the one thing that was queued for the host. -/
def Answered (u v : State) (op : Nat) (m : CellWords) (rest : List CqCell) (status : Nat) (ws : List Word) : Prop :=
  v.lnd.cq = rest ∧ v.lnd.opens = u.lnd.opens ∧
    v.lnd.nq = u.lnd.nq ++ [completionCell u.clk.blkNum (acceptedCmd u op m) status u.tally ws]

/-- The same, where notices are raised as well. -/
def AnsweredToo (u v : State) (op : Nat) (m : CellWords) (rest : List CqCell) (status : Nat) (ws : List Word) : Prop :=
  v.lnd.cq = rest ∧ v.lnd.opens = u.lnd.opens ∧
    completionCell u.clk.blkNum (acceptedCmd u op m) status u.tally ws ∈ v.lnd.nq

/-- The command was accepted and is still open. -/
def Opened (u v : State) (op : Nat) (m : CellWords) (rest : List CqCell) : Prop :=
  v.lnd.cq = rest ∧ v.lnd.opens = u.lnd.opens ++ [acceptedCmd u op m]

/-- The open command with the number id is o, and no message waits to enter the notice queue (R12). -/
def State.OpenIs (u : State) (id : Nat) (o : OpenCmd) : Prop :=
  u.lnd.opens.find? (fun x => decide (x.id = id)) = some o ∧ u.lnd.wait = []

/-- The open command o completed: its completion is queued, and its reservation alone is gone. -/
def Closed (u v : State) (o : OpenCmd) (status : Nat) (ws : List Word) : Prop :=
  completionCell u.clk.blkNum o status u.tally ws ∈ v.lnd.nq ∧ v.lnd.opens = u.lnd.opens.filter fun x => x.id ≠ o.id

/-- Nothing but the Landing's queues, the event counts and the interrupt line differs. -/
def OnlyLanding (u v : State) : Prop :=
  { v with lnd := u.lnd, cnt := u.cnt, pins := { v.pins with irq := u.pins.irq } } = u ∧ MemSame u v 0 0

/-- The entry, which stood as e, was freed: its index is the last to be used again, its generation has moved on (07 R136), a step that was
open is closed, and its data stays in place (14 R311). -/
def Freed (e : Entry) (u v : State) (i : Nat) : Prop :=
  v.entry i = { e with
    state := .free, gen := if e.gen ≥ 0xFFFF then 1 else e.gen + 1, spec := e.spec && e.req.step.isNone, req := Req.init } ∧
  v.man.freed = u.man.freed ++ [i]

/-- Every entry but one stands. -/
def OthersStand (u v : State) (i : Nat) : Prop := ∀ k, k ≠ i → v.entry k = u.entry k

end Sys2Proof.Machine
end

