-- ==== Sys2Proof/Certificates/Slice0/Obligations.lean ====
section
/-! DEFINITION. Obligations.lean: the statements for the provers. `u` is always the state in which a command acts: the stages of
earlier transfers that precede it are applied and the tally has moved to its stamp (log entry 1). -/

open Sys2Proof Sys2Proof.Machine

/-! ### The queue, the invariant, encodings -/

/-- A step takes the command at the front of the queue and is exec of it on the state with the queue's rest; on an empty queue the
block idles (log entry 1).
Choices of this model on which it rests: log entry 1. -/
def Obligations.StepTakesFront : Prop :=
  ∀ (c : Instr) (r : List Instr) (s : State),
    step { s with pending := c :: r } = exec c { s with pending := r } ∧ step { s with pending := [] } = .next { s with pending := [] }

/-- R358, R346, R136, R12: registers and state right after a POWER reset has ended: the values the spec gives, and an empty queue.
Choices of this model on which it rests: log entry 3. -/
def Obligations.ResetValues : Prop :=
  State.reset.pending = [] ∧ State.reset.Sound ∧ State.reset.TabsSound ∧ State.reset.alive = true ∧
    (∀ i, State.reset.entry i = Entry.init 1) ∧ State.reset.man.freed = [] ∧ State.reset.man.fresh = 0 ∧
    (∀ d, (State.reset.domOf d).isOpen = (d == 0)) ∧ State.reset.mem.rgns = [] ∧ State.reset.mem.bytes = [] ∧
    State.reset.tok.en = false ∧ State.reset.ramp.en = false ∧ State.reset.man.en = false ∧ State.reset.lnd.en = false ∧
    State.reset.lnd.cq = [] ∧ State.reset.lnd.nq = [] ∧ State.reset.lnd.opens = [] ∧ State.reset.pil.lastf = 0 ∧
    (∀ k, State.reset.job k = none) ∧ State.reset.dsp.insts = []

/-- Whatever the command and the state, a step answers a next state, and that state's node memory is in canonical form and its open
commands are numbered below the next one (the model's own invariant: log entry 4).
Choices of this model on which it rests: log entry 4. -/
def Obligations.StepKeepsSound : Prop :=
  ∀ s : State, s.Sound → Completes (step s) State.Sound

/-- The sparse tables of job slots, entries and instances keep their keys rising whatever a step does (the model's own invariant, on
which walks over them rest). -/
def Obligations.StepKeepsTables : Prop :=
  ∀ s : State, s.TabsSound → Completes (step s) State.TabsSound

/-- R201, R203–R205: every Salm instruction that can be presented decodes, from the words that encode it, to itself; so does a word
whose opcode R205 marks —, which issues as a word of TRAP. -/
def Obligations.SalmRoundTrip : Prop :=
  ∀ (i : Instr) (op : BitVec 6) (t : Stamp) (slot : Fin 64) (f : BitVec 26) (x : BitVec 32),
    salmParts i = some (op, t, slot, f, x) → i.wf = true →
      salmEncode i = some (if fX f then [op ++ f, x] else [op ++ f]) ∧ salmDecode t slot (op ++ f) x = i

/-- R19: the fields of a token word: every TOKEN, NODE, ACCEPT and PRIME decodes, from the word that encodes it, to itself; and a word is
read by its KIND and its defined fields alone, the reserved bits [95:66] apart, which come with the command: a TOKEN disregards bits
[65:52], a NODE bit 65, an ACCEPT bits [49:32] and [64:58], a PRIME bits [49:32] and [65:52]. -/
def Obligations.TokenWordRoundTrip : Prop :=
  (∀ (i : Instr) (t : Stamp) (lane : Fin 8) (w : BitVec 96), tokenEncode i = some (t, lane, w) → tokenDecode t lane w = i) ∧
    ∀ (t : Stamp) (lane : Fin 8) (w w' : BitVec 96), (∀ k, k < 96 → w.getLsbD k = w'.getLsbD k ∨
        (52 ≤ k ∧ k < 66 ∧ w.getLsbD 50 = w.getLsbD 51) ∨ (k = 65 ∧ w.getLsbD 50 = true ∧ w.getLsbD 51 = false) ∨
        (58 ≤ k ∧ k < 65 ∧ w.getLsbD 50 = false ∧ w.getLsbD 51 = true) ∨ (32 ≤ k ∧ k < 50 ∧ w.getLsbD 51 = true)) →
      tokenDecode t lane w = tokenDecode t lane w'

/-- Words of the example program of chapter 10, written out, and the instructions they stand for; R205: a word whose opcode is marked —
stands for no instruction of its own. Token words of R19, written out. -/
def Obligations.SalmWords : Prop :=
  ∀ (t : Stamp) (slot : Fin 64),
    salmDecode t slot 0x42500600#32 0x50#32 = .ld t slot 0x2500600#26 0x50#32 ∧
    salmDecode t slot 0x22800000#32 0x2000#32 = .li t slot 0x2800000#26 0x2000#32 ∧
    salmDecode t slot 0x38728007#32 0#32 = .fpu t slot 0x0728007#26 0#32 ∧
    salmDecode t slot 0x88A02400#32 0#32 = .feature t slot 0x0A02400#26 0#32 ∧
    salmDecode t slot 0x8CA62400#32 0#32 = .treeCall t slot 0x0A62400#26 0#32 ∧
    salmDecode t slot 0x60400013#32 0#32 = .br t slot 0x0400013#26 0#32 ∧
    salmDecode t slot 0xFC000000#32 0#32 = .endJob t slot 0#26 0#32 ∧
    salmDecode t slot 0x00000000#32 0#32 = .trap t slot 0x00000000 0 ∧ salmDecode t slot 0xE8000000#32 0#32 = .trap t slot 0xE8000000 0 ∧
    (∀ lane, tokenDecode t lane 0x000000000001003F00041A2D#96 = .token t lane 0x00041A2D 0x1003F 0 ∧
      tokenDecode t lane 0x000000010454003F00041A2D#96 = .node t lane 0x00041A2D 0x003F 5 1 true 0 ∧
      tokenDecode t lane 0x0000000200F8000000041A2D#96 = .accept t lane 0x00041A2D 15 true 0 ∧
      tokenDecode t lane 0x80000000000C000000041A2D#96 = .prime t lane 0x00041A2D 0x20000000)

/-- A byte of node memory written reads back as written, every other byte reads as before, the canonical form is kept, and nothing but
node memory changes (log entry 4).
Choices of this model on which it rests: log entry 4. -/
def Obligations.NodeMemoryReadWrite : Prop :=
  ∀ (s : State) (a : Nat) (bs : List Byte), s.MemSound →
    let v := s.wr a bs
    v.MemSound ∧ MemSame s v a bs.length ∧ (∀ k, k < bs.length → v.byte (a + k) = bs.getD k 0) ∧
      v.rd a bs.length = bs ∧ { v with mem := { v.mem with bytes := s.mem.bytes } } = s

/-- A job or a call overruns its slot (08 R174, R175). -/
abbrev Sys2Proof.Machine.State.Late (s : State) : Prop :=
  (∃ p ∈ s.pil.slots, ∃ j ∈ p.2.job.toList, j.lateAt ≠ none ∨ ∃ c ∈ j.calls, c.lateAt ≠ none) ∨
    ∃ p ∈ s.dsp.orphans, p.2.lateAt ≠ none

/-- The number of events ev of bank b that a move of the tally to t adds: those of the tally it leaves, and the clock edges it passes
(R365, R367): GCLK edges in every bank; while the block runs, GCLK edges with an overrun in bank 3, MCLK edges (even tallies) with a start
queue in bank 4, core-cycles without an issue in bank 5, ACLK edges (of each three tallies two) with a CLASSIFY under way in bank 8, cycles with
VALID high and READY low in banks 11 and 12 (log entry 70). -/
def Sys2Proof.Machine.State.eventsTo (s : State) (t : Stamp) (b ev : Nat) : Nat :=
  let at' := fun (b' ev' n : Nat) => if b = b' ∧ ev = ev' ∧ s.running = true then n else 0
  if ev = 0 then 0
  else ((s.cnt.now.filter fun e => e.1 = b ∧ e.2.1 = ev).map fun e => e.2.2).sum + (if ev = 0x01 then t - s.tally else 0) +
    (if s.Late then at' 3 0x13 (t - s.tally) else 0) +
    (if s.dsp.startQ ≠ [] then at' 4 0x18 ((t + 1) / 2 - (s.tally + 1) / 2) else 0) + at' 5 0x12 (s.idleCycles t) +
    (if s.arrayBusy = true then at' 8 0x17 ((List.range (t - s.tally)).countP fun d => (s.tally + d) % 3 ≠ 1) else 0) +
    at' 11 0x1A (s.outWaits t) + at' 12 0x18 (s.portWaits t)

/-- R365, R366: when the tally moves, each counter of a bank that is not frozen takes its own events while it is enabled, or, behind a
chained counter, that counter's carry, modulo 2^32; one that passes the top sets OVF unless it feeds the next. A frozen bank
stands. Nothing but the tally and the counters changes, and the tally never moves back (R8, R11). With no job in a slot no core-cycle counts,
and with no word or request waiting no cycle of a port.
Choices of this model on which it rests: log entry 70. -/
def Obligations.CountersTakeEvents : Prop :=
  ∀ (s : State) (t : Stamp),
    (t ≤ s.tally → s.setTally t = s) ∧
    ((∀ k, s.job k = none) → s.idleCycles t = 0) ∧ (s.ramp.outq = [] → s.outWaits t = 0) ∧
    ((∀ p, p ∈ s.mem.ports → p.2.waitq = []) → s.portWaits t = 0) ∧
    (∀ c j, c < 16 → s.job (4 * c) = some j → (∀ k, k ≠ 4 * c → s.job k = none) → Tab.get s.cnt.issued c = none →
      s.idleCycles t = (t + 1) / 2 - (s.tally + 1) / 2) ∧
    (s.tally < t → let v := s.setTally t
      v.tally = t ∧ { v with tally := s.tally, cnt := s.cnt } = s ∧ v.cnt.now = [] ∧
      ∀ b cs, s.cnt.banks[b]? = some cs → cs.length = 16 → ∃ ds, v.cnt.banks[b]? = some ds ∧
        (bitAt s.cnt.freeze b = true → ds = cs) ∧
        (bitAt s.cnt.freeze b = false → ∀ k (c : Counter), cs[k]? = some c → (k = 0 ∨ ∃ p, cs[k - 1]? = some p ∧ p.chain = false) →
          let sum := c.value + (if c.en then s.eventsTo t b c.event else 0)
          (∃ d, ds[k]? = some d ∧ d.value = sum % 2 ^ 32 ∧ { d with value := c.value, ovf := c.ovf } = c ∧
            (d.ovf = true ↔ c.ovf = true ∨ (2 ^ 32 ≤ sum ∧ ¬ (c.chain = true ∧ k < 15)))) ∧
          (c.chain = true → ∀ e, cs[k + 1]? = some e → ∃ d, ds[k + 1]? = some d ∧ d.value = (e.value + sum / 2 ^ 32) % 2 ^ 32 ∧
            { d with value := e.value, ovf := e.ovf } = e)))

/-! ### Salm instructions -/

/-- R210: the immediate instructions, the shifts by IMM[7:6] and IMM[5:0], and EXTR with its raw IMM (both without an extension word)
write gd; R191: poisoned if the source is (LIH: if gd was). Every other register, every predicate, and all else stand. -/
def Obligations.ImmediatesWriteGd : Prop :=
  ∀ (t : Stamp) (slot : Fin 64) (f : BitVec 26) (x : BitVec 32) (s u : State) (j : Job), u = s.upTo t (kSub 5) →
    (u.Issues slot j f (guardB f) [fGA f] [fGD f] →
      let a := j.val (fGA f)
      let p := (j.reg (fGA f)).pois
      Completes (exec (.addi t slot f x) s) (fun v => WritesReg u v slot j f (a + immB f x) p) ∧
      Completes (exec (.andi t slot f x) s) (fun v => WritesReg u v slot j f (a &&& immB f x) p) ∧
      Completes (exec (.ori t slot f x) s) (fun v => WritesReg u v slot j f (a ||| immB f x) p) ∧
      Completes (exec (.xori t slot f x) s) (fun v => WritesReg u v slot j f (a ^^^ immB f x) p)) ∧
    (u.Issues slot j f (guardB f) [] [fGD f] → fGA f = 0 →
      Completes (exec (.li t slot f x) s) (fun v => WritesReg u v slot j f (immB f x) false)) ∧
    (u.Issues slot j f (guardB f) [fGD f] [fGD f] → fGA f = 0 →
      Completes (exec (.lih t slot f x) s) (fun v => WritesReg u v slot j f
        ((immB f x).extractLsb' 0 32 ++ (j.val (fGD f)).extractLsb' 0 32) (j.reg (fGD f)).pois)) ∧
    (u.Issues slot j f (guardB f) [fGA f] [fGD f] → fX f = false →
      let a := j.val (fGA f)
      let p := (j.reg (fGA f)).pois
      let n := (f.extractLsb' 0 6).toNat
      (f.extractLsb' 6 5 = 0 → Completes (exec (.shi t slot f x) s) (fun v => WritesReg u v slot j f (a <<< n) p)) ∧
      (f.extractLsb' 6 5 = 1 → Completes (exec (.shi t slot f x) s) (fun v => WritesReg u v slot j f (a >>> n) p)) ∧
      (f.extractLsb' 6 5 = 2 → Completes (exec (.shi t slot f x) s) (fun v => WritesReg u v slot j f (a.sshiftRight n) p)) ∧
      ((f.extractLsb' 6 5).toNat < 32 → Completes (exec (.extr t slot f x) s) (fun v => WritesReg u v slot j f
        ((a >>> n) &&& BitVec.ofNat 64 (2 ^ ((f.extractLsb' 6 5).toNat + 1) - 1)) p)))

/-- R209: the value of each ALU function on a and b. -/
def Sys2Proof.Machine.AluValue (fn : Nat) (a b r : Word) : Prop :=
  match fn with
  | 0x00 => r = a + b
  | 0x01 => r = a - b
  | 0x02 => r = a &&& b
  | 0x03 => r = a ||| b
  | 0x04 => r = a ^^^ b
  | 0x05 => r = a &&& ~~~b
  | 0x06 => r = a <<< (b.toNat % 64)
  | 0x07 => r = a >>> (b.toNat % 64)
  | 0x08 => r = a.sshiftRight (b.toNat % 64)
  | 0x09 => r = if a.toInt ≤ b.toInt then a else b
  | 0x0A => r = if a.toInt ≤ b.toInt then b else a
  | 0x0B => r = if a.toNat ≤ b.toNat then a else b
  | 0x0C => r = if a.toNat ≤ b.toNat then b else a
  | 0x0D => r.toNat = ((List.range 64).countP fun i => a.getLsbD i)
  | 0x0E => r.toNat ≤ 64 ∧ (∀ i, i < r.toNat → a.getLsbD (63 - i) = false) ∧ (r.toNat < 64 → a.getLsbD (63 - r.toNat) = true)
  | 0x0F => r.toNat ≤ 64 ∧ (∀ i, i < r.toNat → a.getLsbD i = false) ∧ (r.toNat < 64 → a.getLsbD r.toNat = true)
  | _ => False

/-- R209: ALU writes gd = f(ga, op2) for each FN; the single-operand functions have GB zero and X = 0, and
any other form faults with ILLEGAL (R207). The word 0x0400_0040 is the ALU
instruction with FN 0, every register field zero, PR = 0 and PN = 1. -/
def Obligations.AluWritesGd : Prop :=
  ∀ (t : Stamp) (slot : Fin 64) (f : BitVec 26) (x : BitVec 32) (s u : State) (j : Job) (r : Word), u = s.upTo t (kSub 5) →
    (u.Issues slot j f (guardA f) [fGA f, fGB f] [fGD f] → gbOk f = true → (0x0D ≤ fFN f → oneOp f = true) →
      AluValue (fFN f) (j.val (fGA f)) (j.op2 f x).val r →
      Completes (exec (.alu t slot f x) s) fun v => WritesReg u v slot j f r ((j.reg (fGA f)).pois || (j.op2 f x).pois)) ∧
    (u.AtWord slot j f → legalForm 0x01 f = false → Completes (exec (.alu t slot f x) s) fun v => FaultsWith u v slot 0x10) ∧
    salmDecode t slot 0x04000040 0 = .alu t slot 0x40 0

/-- R211: the value of each MULDIV function. -/
def Sys2Proof.Machine.MulDivValue (fn : Nat) (a b r : Word) : Prop :=
  match fn with
  | 0x00 => r = a * b
  | 0x01 => r = (a.signExtend 128 * b.signExtend 128).extractLsb' 64 64
  | 0x02 => r = (a.setWidth 128 * b.setWidth 128).extractLsb' 64 64
  | 0x03 => r = if b = 0 then BitVec.allOnes 64 else a.sdiv b
  | 0x04 => r = if b = 0 then BitVec.allOnes 64 else a / b
  | 0x05 => r = if b = 0 then a else a.srem b
  | 0x06 => r = if b = 0 then a else a % b
  | _ => False

/-- R211: MULDIV writes gd; division truncates towards zero and no case faults; an undefined FN is
ILLEGAL (R207). -/
def Obligations.MulDivWritesGd : Prop :=
  ∀ (t : Stamp) (slot : Fin 64) (f : BitVec 26) (x : BitVec 32) (s u : State) (j : Job) (r : Word), u = s.upTo t (kSub 5) →
    (u.Issues slot j f (guardA f) [fGA f, fGB f] [fGD f] → gbOk f = true →
      MulDivValue (fFN f) (j.val (fGA f)) (j.op2 f x).val r →
      Completes (exec (.muldiv t slot f x) s) fun v => WritesReg u v slot j f r ((j.reg (fGA f)).pois || (j.op2 f x).pois)) ∧
    (u.AtWord slot j f → legalForm 0x07 f = false → Completes (exec (.muldiv t slot f x) s) fun v => FaultsWith u v slot 0x10)

/-- R212: the comparisons of CMP by FN. -/
def Sys2Proof.Machine.CmpValue (fn : Nat) (a b : Word) (r : Prop) : Prop :=
  match fn with
  | 0x00 => r ↔ a = b
  | 0x01 => r ↔ a ≠ b
  | 0x02 => r ↔ a.toInt < b.toInt
  | 0x03 => r ↔ a.toInt ≤ b.toInt
  | 0x04 => r ↔ a.toNat < b.toNat
  | 0x05 => r ↔ a.toNat ≤ b.toNat
  | 0x06 => r ↔ a &&& b ≠ 0
  | _ => False

/-- The number that a binary32 pattern stands for, times 2^149; an infinity stands above every finite number. -/
def Sys2Proof.Machine.f32Scaled (a : F32) : Int :=
  let ex := (a.extractLsb' 23 8).toNat
  let fr := (a.extractLsb' 0 23).toNat
  let v : Int := if ex = 0 then fr else (2 ^ 23 + fr) * 2 ^ (ex - 1)
  if a.getLsbD 31 then -v else v

/-- Is a binary32 pattern a NaN? -/
def Sys2Proof.Machine.f32Nan (a : F32) : Prop := a.extractLsb' 23 8 = 255 ∧ a.extractLsb' 0 23 ≠ 0

/-- R215: the comparisons of FCMP by FN. -/
def Sys2Proof.Machine.FcmpValue (fn : Nat) (a b : F32) (r : Prop) : Prop :=
  let nan := f32Nan a ∨ f32Nan b
  match fn with
  | 0x00 => r ↔ ¬ nan ∧ f32Scaled a = f32Scaled b
  | 0x01 => r ↔ ¬ nan ∧ f32Scaled a < f32Scaled b
  | 0x02 => r ↔ ¬ nan ∧ f32Scaled a ≤ f32Scaled b
  | 0x03 => r ↔ nan
  | _ => False

/-- R212, R213, R215: CMP, CMPI, FCMP and PLOG set the predicate GD[2:0] and change nothing else; an illegal form faults with ILLEGAL. A
poisoned operand of a comparison is not covered here (POISONUSE, see `AddressAndPoisonFaults`). -/
def Obligations.ComparesSetPredicate : Prop :=
  ∀ (t : Stamp) (slot : Fin 64) (f : BitVec 26) (x : BitVec 32) (s u : State) (j : Job) (r : Bool), u = s.upTo t (kSub 5) →
    (u.Issues slot j f (guardA f) [fGA f, fGB f] [] → gbOk f = true → fGD f < 8 → (j.reg (fGA f)).pois = false →
      (j.op2 f x).pois = false →
      (CmpValue (fFN f) (j.val (fGA f)) (j.op2 f x).val (r = true) →
        Completes (exec (.cmp t slot f x) s) fun v => WritesPred u v slot j f (fGD f) r) ∧
      (FcmpValue (fFN f) ((j.val (fGA f)).setWidth 32) ((j.op2 f x).val.setWidth 32) (r = true) →
        Completes (exec (.fcmp t slot f x) s) fun v => WritesPred u v slot j f (fGD f) r)) ∧
    (u.Issues slot j f (guardB f) [fGA f] [] → (j.reg (fGA f)).pois = false →
      CmpValue ([0x00, 0x01, 0x02, 0x04].getD (fGD f / 8) 0) (j.val (fGA f)) (immB f x) (r = true) →
        Completes (exec (.cmpi t slot f x) s) fun v => WritesPred u v slot j f (fGD f % 8) r) ∧
    (u.Issues slot j f (guardA f) [] [] → fX f = false → fGD f < 8 → fGA f < 8 → fGB f < 8 → fFN f ≤ 4 →
      (fFN f = 4 → fGB f = 0) →
      Completes (exec (.plog t slot f x) s) fun v => WritesPred u v slot j f (fGD f)
        (([j.pred (fGA f) && j.pred (fGB f), j.pred (fGA f) || j.pred (fGB f), j.pred (fGA f) != j.pred (fGB f),
          j.pred (fGA f) && !j.pred (fGB f), !j.pred (fGA f)] : List Bool).getD (fFN f) false)) ∧
    (u.AtWord slot j f →
      (legalForm 0x0B f = false → Completes (exec (.cmp t slot f x) s) fun v => FaultsWith u v slot 0x10) ∧
      (legalForm 0x0F f = false → Completes (exec (.fcmp t slot f x) s) fun v => FaultsWith u v slot 0x10) ∧
      (legalForm 0x0D f = false → Completes (exec (.plog t slot f x) s) fun v => FaultsWith u v slot 0x10))

/-- R214: FPU writes gd. FABS, FNEG, FMIN, FMAX and the conversion to an integer are stated by value; FADD, FSUB, FMUL, FDIV,
FSQRT, FCVTIS, FEXP and FSIG write the model's binary32 operations, with [63:32] zero (`BinaryRoundsToNearest` says what FADD
and FMUL are). -/
def Obligations.FpuWritesGd : Prop :=
  ∀ (t : Stamp) (slot : Fin 64) (f : BitVec 26) (x : BitVec 32) (s u : State) (j : Job), u = s.upTo t (kSub 5) →
    u.Issues slot j f (guardA f) [fGA f, fGB f] [fGD f] → gbOk f = true → (fFN f = 4 ∨ 7 ≤ fFN f → oneOp f = true) →
      let ga := j.val (fGA f)
      let a : F32 := ga.setWidth 32
      let b : F32 := (j.op2 f x).val.setWidth 32
      let ok := fun (r : Word) => Completes (exec (.fpu t slot f x) s) fun v =>
        WritesReg u v slot j f r ((j.reg (fGA f)).pois || (j.op2 f x).pois)
      (fFN f = 0x00 → ok ((fadd a b).setWidth 64)) ∧ (fFN f = 0x01 → ok ((fsub a b).setWidth 64)) ∧
      (fFN f = 0x02 → ok ((fmul a b).setWidth 64)) ∧ (fFN f = 0x03 → ok ((fdiv a b).setWidth 64)) ∧
      (fFN f = 0x04 → ok ((fsqrt a).setWidth 64)) ∧
      (fFN f = 0x05 → (f32Nan a ∨ f32Nan b → ok 0x7FC00000) ∧
        (¬ f32Nan a → ¬ f32Nan b → f32Scaled a ≤ f32Scaled b → ok (a.setWidth 64)) ∧
        (¬ f32Nan a → ¬ f32Nan b → f32Scaled b < f32Scaled a → ok (b.setWidth 64))) ∧
      (fFN f = 0x06 → (f32Nan a ∨ f32Nan b → ok 0x7FC00000) ∧
        (¬ f32Nan a → ¬ f32Nan b → f32Scaled a < f32Scaled b → ok (b.setWidth 64)) ∧
        (¬ f32Nan a → ¬ f32Nan b → f32Scaled b ≤ f32Scaled a → ok (a.setWidth 64))) ∧
      (fFN f = 0x07 → ok ((ofInt ga.toInt).setWidth 64)) ∧
      (fFN f = 0x08 → (f32Nan a → ok 0) ∧
        (¬ f32Nan a → 2 ^ 212 ≤ f32Scaled a → ok 0x7FFFFFFFFFFFFFFF) ∧
        (¬ f32Nan a → f32Scaled a ≤ -(2 ^ 212) → ok 0x8000000000000000) ∧
        (-(2 ^ 212) < f32Scaled a → f32Scaled a < 2 ^ 212 → ok (BitVec.ofInt 64 ((f32Scaled a).tdiv (2 ^ 149))))) ∧
      (fFN f = 0x09 → ok ((fexp a).setWidth 64)) ∧ (fFN f = 0x0A → ok ((sigmoid a).setWidth 64)) ∧
      (fFN f = 0x0B → ok ((a &&& 0x7FFFFFFF).setWidth 64)) ∧ (fFN f = 0x0C → ok ((a ^^^ 0x80000000).setWidth 64))

/-- R99: a binary32 sum and product of finite numbers is the nearest binary32 number, ties to an even significand; beyond the
largest finite number by half a unit or more it is the infinity of its sign. The exact values are times 2^149 and 2^298. -/
def Obligations.BinaryRoundsToNearest : Prop :=
  ∀ (a b : F32), a.extractLsb' 23 8 ≠ 255 → b.extractLsb' 23 8 ≠ 255 →
    let near := fun (r : F32) (exact unit : Int) =>
      ((exact.natAbs : Int) < (2 ^ 24 * 2 - 1) * 2 ^ 252 * unit → r.extractLsb' 23 8 ≠ 255 ∧
        ∀ c : F32, c.extractLsb' 23 8 ≠ 255 →
          (f32Scaled r * unit - exact).natAbs ≤ (f32Scaled c * unit - exact).natAbs ∧
          (f32Scaled c ≠ f32Scaled r → (f32Scaled r * unit - exact).natAbs = (f32Scaled c * unit - exact).natAbs → r.getLsbD 0 = false)) ∧
      ((2 ^ 24 * 2 - 1) * 2 ^ 252 * unit ≤ exact → r = 0x7F800000) ∧
      (exact ≤ -((2 ^ 24 * 2 - 1) * 2 ^ 252 * unit) → r = 0xFF800000)
    near (fadd a b) (f32Scaled a + f32Scaled b) 1 ∧ near (fmul a b) (f32Scaled a * f32Scaled b) (2 ^ 149)

/-- A load wrote gd, advanced the PC, and left every other register and every other job slot's job; what an earlier load returns for gd goes
nowhere (R195). -/
def Sys2Proof.Machine.LoadsReg (u v : State) (slot : Nat) (j : Job) (f : BitVec 26) (val : Word) (pois : Bool) : Prop :=
  ∃ j', v.job slot = some j' ∧ RegsAfter j j' (fGD f) val pois ∧ { j' with regs := j.regs, pc := j.pc } = j.overwrite [fGD f] ∧
    j'.pc = j.pc + ilen f ∧ (∀ k, k ≠ slot → v.slot k = u.slot k) ∧ (v.slot slot).words = (u.slot slot).words ∧
    OnlyPilotMem u v

/-- The byte at a block address as the state cache shows it (13 R296). -/
def Sys2Proof.Machine.State.seenByte (s : State) (a : Nat) : Byte :=
  match Tab.get s.mem.scLines (a / 64) with
  | some l => l.data.extractLsb' (8 * (a % 64)) 8
  | none => s.byte a

/-- An access through a window at b for an owner and generation leaves every cache line but its own and the one that it displaces, and all of
node memory but that one's bytes: a dirty line is written back, so that memory then holds its data (13 R296). -/
def Sys2Proof.Machine.LineAccess (u v : State) (b owner gen : Nat) : Prop :=
  let w := u.scVictim (b / 64) owner gen
  (∀ n, n ≠ b / 64 → (∀ q, w = some q → n ≠ q.1) → Tab.get v.mem.scLines n = Tab.get u.mem.scLines n) ∧
  ((∀ q, w = some q → q.2.dirty = false) → MemSame u v 0 0) ∧
  (∀ q, w = some q → q.2.dirty = true → MemSame u v (64 * q.1) 64 ∧
    ∀ i, i < 64 → v.byte (64 * q.1 + i) = q.2.data.extractLsb' (8 * i) 8) ∧
  ∃ l, Tab.get v.mem.scLines (b / 64) = some l ∧ l.owner = owner ∧ l.gen = gen

/-- The word that an access through a window sees: its line's, or node memory's where the line is not held for the owner and generation. -/
def Sys2Proof.Machine.State.winWord (s : State) (a owner gen : Nat) : Word × Bool :=
  if s.scHit (a / 64) owner gen = true then s.cacheWord a else (s.rd64 a, s.mem.pois.contains a)

/-- R189, R190, R194, R216: LD zero-extends and LDS sign-extends what it reads from job scratch (a stale word reads as poisoned
zero), from the result words (a SKIPped dependence reads as zero, one that posted nothing or is no finished dependence as poisoned
zero), and from a state window (of a page of another generation: poisoned zero). A window's word that no other job has written without
order reads as the state cache or else node memory holds it (R193 leaves the other case open). A line that is not in the state cache is
fetched where the region check grants it and requests are issued (13 R287, R309); a dirty line that it displaces is written back (13 R296).
Choices of this model on which it rests: log entries 8 and 79. -/
def Obligations.LoadsWriteGd : Prop :=
  ∀ (t : Stamp) (slot : Fin 64) (f : BitVec 26) (x : BitVec 32) (s u : State) (j : Job), u = s.upTo t (kSub 5) →
    u.Issues slot j f (guardB f) [fGA f] [fGD f] → (j.reg (fGA f)).pois = false →
      let n := 2 ^ fSZ f
      let a := (j.val (fGA f) + offD f x).toNat
      let with' := fun (val : Nat) (pois : Bool) (mem : State → Prop) =>
        Completes (exec (.ld t slot f x) s) (fun v => LoadsReg u v slot j f (BitVec.ofNat 64 val) pois ∧ mem v) ∧
        Completes (exec (.lds t slot f x) s) (fun v => LoadsReg u v slot j f ((BitVec.ofNat (8 * n) val).signExtend 64) pois ∧ mem v)
      let both := fun (val : Nat) (pois : Bool) => with' val pois fun v => v.mem = u.mem
      a % n = 0 → u.areaBusy j a n false = false → u.winWaits j a = false → u.winTrip j a false = false → u.winLost j a = none →
      (a < 0x10000 → ∀ w, (u.slot slot).word (a / 8) = some w → both ((w.val.toNat >>> (8 * (a % 8))) % 2 ^ (8 * n)) w.pois) ∧
      (a < 0x10000 → (u.slot slot).word (a / 8) = none → both 0 true) ∧
      (0x10000 ≤ a → a < 0x50000 → ∀ r, u.winRun j (a / 0x10000 - 1) = some r →
        (u.pageOk r.page r.owner r.gen = false → both 0 true) ∧
        (u.pageOk r.page r.owner r.gen = true → u.unordered slot ((r.page + a % 0x10000) / 8 * 8) = [] →
          let w := u.winWord ((r.page + a % 0x10000) / 8 * 8) r.owner r.gen
          with' ((w.1.toNat >>> (8 * (a % 8))) % 2 ^ (8 * n)) w.2 fun v => LineAccess u v ((r.page + a % 0x10000) / 8 * 8) r.owner r.gen) ∧
        (u.pageOk r.page r.owner r.gen = true →
          Completes (exec (.ld t slot f x) s) fun v => ∃ val pois, LoadsReg u v slot j f val pois ∧
            LineAccess u v ((r.page + a % 0x10000) / 8 * 8) r.owner r.gen)) ∧
      (0x50000 ≤ a → a < 0x50200 → ∀ g k, u.inst j.inst = some g → g.tasks[j.task]? = some k →
        let i := (a - 0x50000) / 8
        (bitAt k.deps i = true → bitAt g.done i = true → ∀ w, Tab.get g.results i = some w →
          both ((w.toNat >>> (8 * (a % 8))) % 2 ^ (8 * n)) false) ∧
        (bitAt k.deps i = true → bitAt g.done i = true → Tab.get g.results i = none → both 0 true) ∧
        (bitAt k.deps i = true → bitAt g.done i = false → bitAt g.skip i = true → both 0 false) ∧
        (bitAt k.deps i = false ∨ (bitAt g.done i = false ∧ bitAt g.skip i = false) → both 0 true))

/-- R189–R192, R216: ST writes the low bytes of the register GR and its poison bit, to job scratch or to the program area of a
mapped page; no register changes. In scratch the rest of a live word stands, the rest of a stale word is zero. Through a window
the bytes at the page's address take the value in the state cache's line, which is dirty from then on, every other byte that the line shows
stands, and node memory changes only where the access displaces a dirty line (13 R296; where no other job has an unordered store to the word:
R193).
Choices of this model on which it rests: log entries 8 and 79. -/
def Obligations.StoresWriteBytes : Prop :=
  ∀ (t : Stamp) (slot : Fin 64) (f : BitVec 26) (x : BitVec 32) (s u : State) (j : Job), u = s.upTo t (kSub 5) → u.Sound →
    u.Issues slot j f (guardB f) [fGA f, fGD f] [] → (j.reg (fGA f)).pois = false →
      let n := 2 ^ fSZ f
      let a := (j.val (fGA f) + offD f x).toNat
      let src := j.reg (fGD f)
      a % n = 0 → u.areaBusy j a n true = false → u.winWaits j a = false → u.winTrip j a true = false → u.winLost j a = none →
      (a < 0x10000 → Completes (exec (.st t slot f x) s) fun v =>
        (∃ j', v.job slot = some j' ∧ Advances j j' f) ∧ (∀ k, k ≠ slot → v.slot k = u.slot k) ∧
        (∀ k, k ≠ a / 8 → (v.slot slot).word k = (u.slot slot).word k) ∧
        (∃ w, (v.slot slot).word (a / 8) = some w ∧ w.pois = src.pois ∧ ∀ i, i < 8 →
          (w.val.toNat >>> (8 * i)) % 256 =
            if a % 8 ≤ i ∧ i < a % 8 + n then (src.val.toNat >>> (8 * (i - a % 8))) % 256
            else ((((u.slot slot).word (a / 8)).map SWord.val).getD 0).toNat >>> (8 * i) % 256) ∧
        OnlyPilotMem u v ∧ v.mem = u.mem) ∧
      (0x10000 ≤ a → a < 0x50000 → ∀ r, u.winRun j (a / 0x10000 - 1) = some r → u.pageOk r.page r.owner r.gen = true →
        r.prog (a % 0x10000) = true → u.unordered slot ((r.page + a % 0x10000) / 8 * 8) = [] →
        let p := r.page + a % 0x10000
        Completes (exec (.st t slot f x) s) fun v =>
          (∃ j', v.job slot = some j' ∧ { j' with pc := j.pc, stores := j.stores } = j ∧ j'.pc = j.pc + ilen f) ∧
          (∀ k, k ≠ slot → v.slot k = u.slot k) ∧ (v.slot slot).words = (u.slot slot).words ∧
          (∀ i, i < n → v.seenByte (p + i) = BitVec.ofNat 8 (src.val.toNat >>> (8 * i))) ∧
          (∀ k, k / 64 = p / 64 → k < p ∨ p + n ≤ k →
            v.seenByte k = if u.scHit (p / 64) r.owner r.gen = true then u.seenByte k else u.byte k) ∧
          (∃ l, Tab.get v.mem.scLines (p / 64) = some l ∧ l.dirty = true ∧ bitAt l.pois (p % 64 / 8) = src.pois) ∧
          LineAccess u v (p / 8 * 8) r.owner r.gen ∧ OnlyPilotMem u v)

/-- R195, R217: LDM places its request on memory port 2 and names its destination among the loads outstanding; no register and no
byte of memory changes. A misaligned address faults with ALIGN, one outside the permitted regions with NODEMEM. (Its data comes by MEMORY_RESPONSE: `MemoryPortTransfers`.) -/
def Obligations.LdmRequests : Prop :=
  ∀ (t : Stamp) (slot : Fin 64) (f : BitVec 26) (x : BitVec 32) (s u : State) (j : Job), u = s.upTo t (kSub 5) →
    u.Issues slot j f (guardB f) [fGA f] [fGD f] → (j.reg (fGA f)).pois = false →
      let n := 2 ^ fSZ f
      let a := (j.val (fGA f) + offD f x).toNat
      (a % n = 0 → a < 2 ^ 40 → u.access j.dom a n false true = true → j.ldms.length < 8 →
        Completes (exec (.ldm t slot f x) s) fun v =>
          (∃ j', v.job slot = some j' ∧ { j' with pc := j.pc, ldms := j.ldms, nextCall := j.nextCall } = j ∧ j'.pc = j.pc + ilen f ∧
            j'.ldms = (j.overwrite [fGD f]).ldms ++ [⟨j.nextCall, fGD f, a, n⟩] ∧ j'.nextCall = j.nextCall + 1) ∧
          (v.port 2).waitq = (u.port 2).waitq ++ [⟨false, a / 128 * 128, 0, 0, 0, .ldm slot j.nextCall j.inst⟩] ∧
          (∀ k, k ≠ slot.val → v.slot k = u.slot k) ∧ (v.slot slot).words = (u.slot slot).words ∧
          OnlyPilotMem u v ∧ MemSame u v 0 0) ∧
      (a % n ≠ 0 → Completes (exec (.ldm t slot f x) s) fun v => FaultsWith u v slot 0x12) ∧
      (a % n = 0 → 2 ^ 40 ≤ a ∨ u.access j.dom a n false true = false →
        Completes (exec (.ldm t slot f x) s) fun v => v = (u.issuing slot).viol.jobFault slot 0x18 0 u.tally)

/-- Two job slots hold the same but for the old values that their jobs keep of unordered stores (09 R193). -/
def Sys2Proof.Machine.SameButStores (x y : Slot) : Prop :=
  { y with job := y.job.map fun (j : Job) => { j with stores := [] } } = { x with job := x.job.map fun (j : Job) => { j with stores := [] } }

/-- From u to v only the job of the slot, now j', the event counts and what jobs keep of unordered stores differ. -/
def Sys2Proof.Machine.OnlyJobStores (u v : State) (slot : Nat) (j' : Job) : Prop :=
  v.job slot = some j' ∧ (v.slot slot).words = (u.slot slot).words ∧ (∀ k, k ≠ slot → SameButStores (u.slot k) (v.slot k)) ∧
    { v.pil with slots := u.pil.slots } = u.pil ∧ { v with pil := u.pil, cnt := u.cnt } = u ∧ MemSame u v 0 0

/-- R192, R218 (MAPW), R188, R221 (RDS), R193, R237 (FENCE): a mapped window shows page-list entry n; RDS copies the special register;
FENCE orders the job's stores, held while a NOTE of its request waits to enter the notice queue. Nothing else changes. An illegal form
faults.
R164, R219: POST sets the task's result word. R163, R220: SKIP adds to the instance's SKIP set the tasks below NTASK that its
operand names and that are not in ISSUED, without the verdict task, and their dependences are to be resolved (R162); neither changes a
register.
Choices of this model on which it rests: log entries 80 and 89. -/
def Obligations.MapReadFencePostSkip : Prop :=
  (∀ (t : Stamp) (slot : Fin 64) (f : BitVec 26) (x : BitVec 32) (s u : State) (j : Job), u = s.upTo t (kSub 5) →
    (u.AtWord slot j f →
      (legalForm 0x14 f = false → Completes (exec (.mapw t slot f x) s) fun v => FaultsWith u v slot 0x10) ∧
      (legalForm 0x17 f = false → Completes (exec (.rds t slot f x) s) fun v => FaultsWith u v slot 0x10) ∧
      (legalForm 0x32 f = false → Completes (exec (.salmFence t slot f x) s) fun v => FaultsWith u v slot 0x10)) ∧
    (fX f = false →
    (u.Issues slot j f (guardA f) [fGA f, fGB f] [] → fGD f = 0 → fFN f = 0 → (j.reg (fGA f)).pois = false →
      (j.reg (fGB f)).pois = false → (j.val (fGA f)).toNat < (u.entry (hIdx j.handle)).npage → (j.val (fGB f)).toNat ≤ 3 →
      Completes (exec (.mapw t slot f x) s) fun v => ∃ j', OnlyJob u v slot j' ∧ { j' with pc := j.pc, wins := j.wins } = j ∧
        j'.pc = j.pc + 4 ∧ (∀ w, (j'.wins[w]?).getD none =
          if w = (j.val (fGB f)).toNat then some (j.val (fGA f)).toNat else (j.wins[w]?).getD none)) ∧
    (u.Issues slot j f (guardA f) [] [fGD f] → fGA f = 0 → fGB f = 0 →
      let e := u.entry (hIdx j.handle)
      (fFN f = 0 → Completes (exec (.rds t slot f x) s) fun v => WritesReg u v slot j f (j.handle.setWidth 64) false) ∧
      (fFN f = 1 → Completes (exec (.rds t slot f x) s) fun v => WritesReg u v slot j f
        (BitVec.ofNat 64 (j.dom + nb e.esel * 2 ^ 8 + nb (u.domOf j.dom).nonenf * 2 ^ 9 + e.epoch * 2 ^ 16)) false) ∧
      (fFN f = 2 → Completes (exec (.rds t slot f x) s) fun v => WritesReg u v slot j f (BitVec.ofNat 64 u.tally) false) ∧
      (fFN f = 3 → ∀ g, u.inst j.inst = some g →
        Completes (exec (.rds t slot f x) s) fun v => WritesReg u v slot j f
          (BitVec.ofNat 64 (slot.val + j.task * 2 ^ 6 + j.inst * 2 ^ 12 + nb j.elastic * 2 ^ 23 + nb g.answer * 2 ^ 24 +
            nb g.screen * 2 ^ 25 + g.depth * 2 ^ 26 + g.graph * 2 ^ 32)) false)) ∧
    (u.Issues slot j f (guardA f) [] [] → fGD f = 0 → fGA f = 0 → fGB f = 0 → fFN f = 0 →
      (u.entry (hIdx j.handle)).req.build = none →
      (u.noteWaits j.handle = true → exec (.salmFence t slot f x) s = .next u) ∧
      (u.noteWaits j.handle = false → Completes (exec (.salmFence t slot f x) s) fun v => ∃ j', OnlyJobStores u v slot j' ∧
        { j' with pc := j.pc, stores := j.stores } = j ∧ j'.pc = j.pc + 4 ∧ j'.stores = [])))) ∧
  (∀ (t : Stamp) (slot : Fin 64) (f : BitVec 26) (x : BitVec 32) (s u : State) (j : Job) (g : GInst), u = s.upTo t (kSub 5) →
    u.Issues slot j f (guardA f) [fGA f] [] → u.inst j.inst = some g → fX f = false → fGD f = 0 → fGB f = 0 → fFN f = 0 →
    (j.reg (fGA f)).pois = false →
      let w := j.val (fGA f)
      let frame := fun (v : State) => (∃ j', v.job slot = some j' ∧ Advances j j' f) ∧ (∀ k, k ≠ slot.val → v.slot k = u.slot k) ∧
        (∀ k, k ≠ j.inst → v.inst k = u.inst k) ∧ MemSame u v 0 0 ∧ { v with pil := u.pil, cnt := u.cnt, dsp := u.dsp } = u
      Completes (exec (.post t slot f x) s) (fun v => frame v ∧ ∃ g', v.inst j.inst = some g' ∧ { g' with results := g.results } = g ∧
        Tab.get g'.results j.task = some w ∧ (∀ k, k ≠ j.task → Tab.get g'.results k = Tab.get g.results k)) ∧
      Completes (exec (.skipTasks t slot f x) s) fun v => frame v ∧ (∃ g', v.inst j.inst = some g' ∧ { g' with skip := g.skip } = g ∧
        ∀ i, i < 64 → (bitAt g'.skip i = true ↔ bitAt g.skip i = true ∨
          (bitAt w i = true ∧ bitAt g.issued i = false ∧ i < g.ntask ∧ i ≠ g.vtask))) ∧
        ∃ q, q ∈ v.dsp.resolve ∧ q.inst = j.inst ∧ q.at' = u.tally ∧ ∀ i, i < 64 → (bitAt q.set i = true ↔
          bitAt w i = true ∧ bitAt g.issued i = false ∧ i < g.ntask ∧ i ≠ g.vtask))

/-- R222, R223: BR sets the PC to pc + 4 × OFF, JAL sets gd to the next PC and jumps to ga + op2; a target outside
[0, 4 × NWORD), and for JAL one that is no multiple of 4, faults with PCBOUND, and gd is not written. An untaken BR only advances; a
poisoned ga or op2 of JAL faults with POISONUSE; a BR with X, or a JAL with a bad FN or GB, with ILLEGAL. -/
def Obligations.BranchesJump : Prop :=
  ∀ (t : Stamp) (slot : Fin 64) (f : BitVec 26) (x : BitVec 32) (s u : State) (j : Job), u = s.upTo t (kSub 5) →
    j.nword < 2 ^ 18 →
    (u.Issues slot j f (guardC f) [] [] → fX f = false →
      let dest : Int := (j.pc : Int) + 4 * (f.extractLsb' 0 21).toInt
      (0 ≤ dest → dest < 4 * j.nword → dest % 4 = 0 → Completes (exec (.br t slot f x) s) fun v => ∃ j', OnlyJob u v slot j' ∧
        { j' with pc := j.pc } = j ∧ (j'.pc : Int) = dest) ∧
      (dest < 0 ∨ 4 * j.nword ≤ dest → Completes (exec (.br t slot f x) s) fun v => FaultsWith u v slot 0x11)) ∧
    (u.AtWord slot j f →
      (legalForm 0x18 f = false → Completes (exec (.br t slot f x) s) fun v => FaultsWith u v slot 0x10) ∧
      (legalForm 0x19 f = false → Completes (exec (.jal t slot f x) s) fun v => FaultsWith u v slot 0x10)) ∧
    (u.AtWord slot j f → fX f = false →
      j.pred (guardC f).1 = (guardC f).2 → Completes (exec (.br t slot f x) s) fun v => ∃ j', OnlyJob u v slot j' ∧ Advances j j' f) ∧
    (u.Issues slot j f (guardA f) [fGA f, fGB f] [fGD f] → gbOk f = true → fFN f = 0 →
      (j.reg (fGA f)).pois = true ∨ (j.op2 f x).pois = true →
      Completes (exec (.jal t slot f x) s) fun v => FaultsWith u v slot 0x19) ∧
    (u.Issues slot j f (guardA f) [fGA f, fGB f] [fGD f] → gbOk f = true → fFN f = 0 → (j.reg (fGA f)).pois = false →
      (j.op2 f x).pois = false →
      let dest := (j.val (fGA f) + (j.op2 f x).val).toNat
      (dest % 4 = 0 → dest < 4 * j.nword → Completes (exec (.jal t slot f x) s) fun v => ∃ j', OnlyJob u v slot j' ∧
        RegsAfter j j' (fGD f) (BitVec.ofNat 64 (j.pc + ilen f)) false ∧ { j' with regs := j.regs, pc := j.pc } = j.overwrite [fGD f] ∧ j'.pc = dest) ∧
      (dest % 4 ≠ 0 ∨ 4 * j.nword ≤ dest → Completes (exec (.jal t slot f x) s) fun v => FaultsWith u v slot 0x11))

/-- R65, R112, R224, R225, R228: a call whose class is off, or whose units are all fenced (a choice of this model for the cause, assumption 73),
faults with DISABLED. An engine call that passes the eight checks copies its 16-byte block and becomes outstanding with GD as its
status register and the chunk number in g2 (which a call on an answer stream alone waits for), unless its areas overlap those of a call that is still outstanding; the first check that
fails raises its fault and no call is made. R230: WAIT with no call outstanding only advances.
Choices of this model on which it rests: log entries 10 and 73. -/
def Obligations.EngineCallsIssue : Prop :=
  ∀ (t : Stamp) (slot : Fin 64) (f : BitVec 26) (x : BitVec 32) (s u : State) (j : Job), u = s.upTo t (kSub 5) → fX f = false →
    (∀ (op : CallOp) (i : Instr), (op, i) ∈ [(CallOp.matchOp, Instr.matchCall t slot f x), (.xlate, .xlate t slot f x),
        (.feature, .feature t slot f x), (.tree, .treeCall t slot f x), (.classify, .classify t slot f x)] →
      let chunk := if (u.inst j.inst).any (fun g => g.answer) = true ∧ op ≠ .tree then [2] else []
      u.Issues slot j f (guardA f) ([fGA f, fGB f] ++ chunk) [fGD f] → fFN f ≤ (if op = .classify then 3 else 1) →
      let a := (j.val (fGA f)).toNat
      let faults := fun (c : Nat) => Completes (exec i s) fun v => FaultsWith u v slot c
      let poisoned := (j.reg (fGA f)).pois = true ∨ (j.reg (fGB f)).pois = true
      let blockBad := (u.slot slot).wordBad (a / 8) = true ∨ (u.slot slot).wordBad (a / 8 + 1) = true
      let linkBad := op = .tree ∧ fFN f % 2 = 1 ∧ (j.dom ≠ 0 ∨ u.treTest = false)
      let noView := fld u.txt.fenced 20 2 = 3 ∧ ∃ g, u.inst j.inst = some g ∧ g.answer = true ∧
        ∃ v, v ∈ u.txt.views ∧ v.handle = j.handle ∧ v.k = (j.val 2).toNat ∧ v.built = false
      let noUnit := (op = .matchOp ∧ (fld u.txt.fenced 0 16 = 65535 ∨ noView)) ∨ (op = .xlate ∧ (fld u.txt.fenced 16 4 = 15 ∨ noView)) ∨
        (op = .feature ∧ u.tre.fst = 3)
      let open' := u.classEn op = true ∧ ¬ noUnit
      u.areaBusy j a 16 false = false →
      (u.classEn op = false ∨ noUnit → faults 0x0A) ∧
      (open' → op.cls ≠ j.cls → faults 0x05) ∧
      (open' → op.cls = j.cls → poisoned → faults 0x19) ∧
      (open' → op.cls = j.cls → ¬ poisoned →
        (a % 8 ≠ 0 → faults 0x12) ∧
        (a % 8 = 0 → 65536 < a + 16 → faults 0x13) ∧
        (a % 8 = 0 → a + 16 ≤ 65536 →
          (blockBad → faults 0x19) ∧
          (¬ blockBad → linkBad → faults 0x04) ∧
          (¬ blockBad → ¬ linkBad → 4 ≤ j.calls.length → faults 0x1A) ∧
          (¬ linkBad → j.calls.length < 4 → ∀ w0 w1, (u.slot slot).word (a / 8) = some ⟨w0, (u.slot slot).gen, false, true⟩ →
            (u.slot slot).word (a / 8 + 1) = some ⟨w1, (u.slot slot).gen, false, true⟩ →
            let c : Call := ⟨j.nextCall, op, fGD f, w0, w1, (j.val (fGB f)).toNat, bitAt f 0, bitAt f 1, (j.val 2).toNat,
              u.tally, none, none, false, ⟨[], none, [], 0⟩⟩
            (∀ d, d ∈ j.calls → overlap c.out (u.callAreas j c).2 d.out (u.callAreas j d).2 = false ∧
              overlap c.inA (u.callAreas j c).1 d.out (u.callAreas j d).2 = false) →
            Completes (exec i s) fun v => (∃ j', v.job slot = some j' ∧ j'.calls = j.calls ++ [c] ∧ j'.pc = j.pc + 4 ∧
              { j' with pc := j.pc, calls := j.calls, nextCall := j.nextCall } = j.overwrite [fGD f]) ∧
              (∀ k, k ≠ slot.val → v.slot k = u.slot k) ∧ (v.slot slot).words = (u.slot slot).words ∧
              { v with pil := u.pil, cnt := u.cnt } = u ∧ MemSame u v 0 0)))) ∧
    (u.Issues slot j f (guardA f) [] [] → fGD f = 0 → fGA f = 0 → fGB f = 0 → fFN f = 0 → j.calls = [] →
      Completes (exec (.wait t slot f x) s) fun v => ∃ j', OnlyJob u v slot j' ∧ Advances j j' f)

/-- R231: VERDICT of the verdict task sets the instance's verdict word; of any other task it is ignored and counted. R232: VMERGE
writes the merge of two verdict words. A word with a bit above 20, an ACTION of 001, 110 or 111, or COVER_N above 256 faults. An
illegal form faults with ILLEGAL.
Choices of this model on which it rests: log entry 50. -/
def Obligations.VerdictWords : Prop :=
  ∀ (t : Stamp) (slot : Fin 64) (f : BitVec 26) (x : BitVec 32) (s u : State) (j : Job) (g : GInst), u = s.upTo t (kSub 5) →
    let good := fun (w : Word) => w.toNat < 2 ^ 21 ∧ (w.extractLsb' 0 3).toNat ∈ [0, 2, 3, 4, 5] ∧ (w.extractLsb' 12 9).toNat ≤ 256
    let word : Reg := if fX f then ⟨x.setWidth 64, false⟩ else j.reg (fGA f)
    (u.Issues slot j f (guardA f) [fGA f] [] → u.inst j.inst = some g → fGD f = 0 → fFN f = 0 → fGB f = 0 →
      (fX f = true → fGA f = 0) → word.pois = false →
      (good word.val → j.task = g.vtask → Completes (exec (.verdict t slot f x) s) fun v =>
        v.inst j.inst = some { g with verdict := some word.val } ∧ (∀ k, k ≠ j.inst → v.inst k = u.inst k) ∧
        (∃ j', v.job slot = some j' ∧ Advances j j' f) ∧ (∀ k, k ≠ slot.val → v.slot k = u.slot k) ∧
        { v with pil := u.pil, cnt := u.cnt, dsp := u.dsp } = u ∧ MemSame u v 0 0) ∧
      (good word.val → j.task ≠ g.vtask → Completes (exec (.verdict t slot f x) s) fun v => ∃ j', OnlyJob u v slot j' ∧ Advances j j' f) ∧
      (¬ good word.val → Completes (exec (.verdict t slot f x) s) fun v => FaultsWith u v slot 0x1B)) ∧
    (u.Issues slot j f (guardA f) [fGA f, fGB f] [fGD f] → gbOk f = true → fFN f = 0 → (j.reg (fGA f)).pois = false →
      (j.op2 f x).pois = false →
      let a := j.val (fGA f)
      let b := (j.op2 f x).val
      let act := fun (w : Word) => (w.extractLsb' 0 3).toNat
      let off := fun (w : Word) => (w.extractLsb' 4 8).toNat
      let num := fun (w : Word) => (w.extractLsb' 12 9).toNat
      (good a → good b → Completes (exec (.vmerge t slot f x) s) fun v => ∃ r, WritesReg u v slot j f r false ∧
        act r = max (act a) (act b) ∧ (r.getLsbD 3 = (a.getLsbD 3 || b.getLsbD 3)) ∧ r.toNat < 2 ^ 21 ∧
        (act b < act a → off r = off a ∧ num r = num a) ∧ (act a < act b → off r = off b ∧ num r = num b) ∧
        (act a = act b → num a = 0 ∨ num b = 0 → off r = 0 ∧ num r = 0) ∧
        (act a = act b → num a ≠ 0 → num b ≠ 0 → off r = min (off a) (off b) ∧
          num r = min (max (off a + num a) (off b + num b) - off r) 256)) ∧
      (¬ good a ∨ ¬ good b → Completes (exec (.vmerge t slot f x) s) fun v => FaultsWith u v slot 0x1B)) ∧
    (u.AtWord slot j f →
      (legalForm 0x28 f = false → Completes (exec (.verdict t slot f x) s) fun v => FaultsWith u v slot 0x10) ∧
      (legalForm 0x29 f = false → Completes (exec (.vmerge t slot f x) s) fun v => FaultsWith u v slot 0x10))

/-- R178, R233: SEMACQ of a free semaphore with nobody waiting is granted at once, of a held one suspends the job behind the
waiters, and of one that the job holds gives OWNED and changes nothing; SEMREL frees it. A number above 15 faults. -/
def Obligations.SemaphoresAcquireRelease : Prop :=
  ∀ (t : Stamp) (slot : Fin 64) (f : BitVec 26) (x : BitVec 32) (s u : State) (j : Job), u = s.upTo t (kSub 5) → fX f = false →
    fGB f = 0 → fFN f = 0 → (j.reg (fGA f)).pois = false →
      let n := (j.val (fGA f)).toNat
      let y := (u.domOf j.dom).sem n
      let frame := fun (v : State) => (∀ k, k ≠ slot.val → SameButStores (u.slot k) (v.slot k)) ∧ (v.slot slot).words = (u.slot slot).words ∧
        (∀ d, d ≠ j.dom → v.domOf d = u.domOf d) ∧ (∀ m, m ≠ n → (v.domOf j.dom).sem m = (u.domOf j.dom).sem m) ∧
        { v.domOf j.dom with sems := (u.domOf j.dom).sems } = u.domOf j.dom ∧
        { v with pil := u.pil, cnt := u.cnt, doms := u.doms } = u ∧ MemSame u v 0 0
      (u.Issues slot j f (guardA f) [fGA f] [fGD f] → n ≤ 15 →
        (n ∈ j.sems → Completes (exec (.semacq t slot f x) s) fun v => WritesReg u v slot j f 2 false) ∧
        (n ∉ j.sems → y.holder = none → y.waiters = [] → Completes (exec (.semacq t slot f x) s) fun v => frame v ∧
          (v.domOf j.dom).sem n = ⟨some slot, [], false⟩ ∧ ∃ j', v.job slot = some j' ∧
          RegsAfter j j' (fGD f) (if y.reclaimed then 1 else 0) false ∧ j'.sems = j.sems ++ [n] ∧ j'.pc = j.pc + 4 ∧
          { j' with regs := j.regs, sems := j.sems, pc := j.pc } = j.overwrite [fGD f]) ∧
        (n ∉ j.sems → (y.holder ≠ none ∨ y.waiters ≠ []) → Completes (exec (.semacq t slot f x) s) fun v => frame v ∧
          (v.domOf j.dom).sem n = { y with waiters := y.waiters ++ [slot.val] } ∧ ∃ j', v.job slot = some j' ∧
          j'.wait = .sem n u.tally (fGD f) ∧ j'.pc = j.pc + 4 ∧ { j' with wait := .no, pc := j.pc } = j.overwrite [fGD f])) ∧
      (u.Issues slot j f (guardA f) [fGA f] [fGD f] → 15 < n →
        Completes (exec (.semacq t slot f x) s) fun v => FaultsWith u v slot 0x1C) ∧
      (u.Issues slot j f (guardA f) [fGA f] [] → fGD f = 0 → n ≤ 15 →
        (n ∈ j.sems → Completes (exec (.semrel t slot f x) s) fun v => frame v ∧
          (v.domOf j.dom).sem n = { y with holder := none } ∧ ∃ j', v.job slot = some j' ∧
          (∀ k, k ∈ j'.sems ↔ k ∈ j.sems ∧ k ≠ n) ∧ j'.pc = j.pc + 4 ∧
          { j' with sems := j.sems, stores := j.stores, pc := j.pc } = j) ∧
        (n ∉ j.sems → Completes (exec (.semrel t slot f x) s) fun v => frame v ∧ v.doms = u.doms ∧ ∃ j', v.job slot = some j' ∧
          { j' with stores := j.stores, pc := j.pc } = j ∧ j'.pc = j.pc + 4))

/-- R234, 13 R306: CRACQ of credits that are free with nobody waiting is granted at once and whole, else the job is suspended
behind the waiters; CRREL returns min(gb, held) credits. A pool whose group is not up, or a count outside 1–64, faults. -/
def Obligations.CreditsAcquireReturn : Prop :=
  ∀ (t : Stamp) (slot : Fin 64) (f : BitVec 26) (x : BitVec 32) (s u : State) (j : Job), u = s.upTo t (kSub 5) → fX f = false →
    fFN f = 0 → (j.reg (fGA f)).pois = false → (j.reg (fGB f)).pois = false →
      let g := (j.val (fGA f)).toNat
      let n := (j.val (fGB f)).toNat
      let y := u.group g
      let held := Tab.getD j.creds g 0
      let up := g < 8 ∧ y.isUp = true
      let frame := fun (v : State) => (∀ k, k ≠ slot.val → v.slot k = u.slot k) ∧ (v.slot slot).words = (u.slot slot).words ∧
        (∀ k, k ≠ g → v.group k = u.group k) ∧ { v.fry with grp := u.fry.grp } = u.fry ∧
        { v with pil := u.pil, cnt := u.cnt, fry := u.fry } = u ∧ MemSame u v 0 0
      (u.Issues slot j f (guardA f) [fGA f, fGB f] [fGD f] →
        (up → 1 ≤ n → n ≤ 64 → y.waiters = [] → n ≤ y.free → Completes (exec (.cracq t slot f x) s) fun v => frame v ∧
          v.group g = { y with free := y.free - n, marked := false } ∧ ∃ j', v.job slot = some j' ∧
          RegsAfter j j' (fGD f) (BitVec.ofNat 64 ((if y.marked then 1 else 0) + n * 2 ^ 16)) false ∧
          Tab.getD j'.creds g 0 = held + n ∧ (∀ k, k ≠ g → Tab.getD j'.creds k 0 = Tab.getD j.creds k 0) ∧
          { j' with regs := j.regs, creds := j.creds, pc := j.pc } = j.overwrite [fGD f] ∧ j'.pc = j.pc + 4) ∧
        (up → 1 ≤ n → n ≤ 64 → (y.waiters ≠ [] ∨ y.free < n) → Completes (exec (.cracq t slot f x) s) fun v => frame v ∧
          v.group g = { y with waiters := y.waiters ++ [slot.val] } ∧ ∃ j', v.job slot = some j' ∧
          j'.wait = .cred g n u.tally (fGD f) ∧ { j' with wait := .no, pc := j.pc } = j.overwrite [fGD f] ∧ j'.pc = j.pc + 4) ∧
        (¬ up ∨ n = 0 ∨ 64 < n → Completes (exec (.cracq t slot f x) s) fun v => FaultsWith u v slot 0x1C)) ∧
      (u.Issues slot j f (guardA f) [fGA f, fGB f] [] → fGD f = 0 →
        (up → Completes (exec (.crrel t slot f x) s) fun v => frame v ∧
          v.group g = { y with free := min 64 (y.free + min n held) } ∧ ∃ j', v.job slot = some j' ∧
          Tab.getD j'.creds g 0 = held - min n held ∧ (∀ k, k ≠ g → Tab.getD j'.creds k 0 = Tab.getD j.creds k 0) ∧
          { j' with creds := j.creds, pc := j.pc } = j ∧ j'.pc = j.pc + 4) ∧
        (¬ up → Completes (exec (.crrel t slot f x) s) fun v => FaultsWith u v slot 0x1C))

/-- The notice queue has room for n more cells beside its reservations (11 R244), and a notice need not wait: no message does, and no slot
may still be forfeited (01 R12, 11 R262). -/
def Sys2Proof.Machine.State.roomFor (u : State) (n : Nat) : Prop :=
  u.lnd.nq.length + u.lnd.opens.length + n ≤ 2047 ∧ u.lnd.wait = [] ∧ u.atRisk = []

/-- A notice of one cell: opcode, domain, handle, stamp and W3 onward, in a block of the given number (11 R239, R240). -/
def Sys2Proof.Machine.noticeCell (blk op dom : Nat) (h : Handle) (t : Stamp) (ws : List Word) : NqCell :=
  ⟨([BitVec.ofNat 64 (op + 2 * 2 ^ 8 + blk * 2 ^ 10 + dom % 256 * 2 ^ 16), BitVec.ofNat 64 t, BitVec.ofNat 64 h.toNat] ++ ws ++
    List.replicate 5 0).take 8, true, true, false, false⟩

/-- R235, R176: YIELD of a job that is not due for pre-emption only advances; of one that is due, with no load, call, semaphore or
credit outstanding and a save frame free, saves it with the scratch below E, a stale word as the poisoned zero that it reads as, and
frees its slot. With a call outstanding or no
frame free (R176) it only advances; holding a semaphore or credit it opens the deferral window of HOLDLIM and its run counts as overrun (R179). R236: NOTE raises JOB_NOTE (which
waits for a MIGRATE_IN or REUSE that still builds the request: log entry 80).
Choices of this model on which it rests: log entries 13, 80 and 106. -/
def Obligations.YieldAndNote : Prop :=
  ∀ (t : Stamp) (slot : Fin 64) (f : BitVec 26) (x : BitVec 32) (s u : State) (j : Job), u = s.upTo t (kSub 5) → fGD f = 0 → fGB f = 0 →
    u.Issues slot j f (guardA f) [fGA f] [] →
      (fFN f = 0 → (fX f = true → fGA f = 0) → (fX f = false → (j.reg (fGA f)).pois = false) → j.ldms = [] →
        let v0 := if fX f then x.toNat else (j.val (fGA f)).toNat
        let e := min 65536 ((v0 + 63) / 64 * 64)
        let fr := Tab.lowestFree u.dsp.frames 0
        (u.preemptDue slot j u.tally = false → Completes (exec (.yield t slot f x) s) fun v =>
          ∃ j', OnlyJob u v slot j' ∧ Advances j j' f) ∧
        (u.preemptDue slot j u.tally = true → j.calls = [] → j.holds = false → fr < 1024 → u.areaOk (u.frameAt fr) frameSize = true →
          Completes (exec (.yield t slot f x) s) fun v => v.job slot = none ∧ (∀ k, k ≠ slot.val → SameButStores (u.slot k) (v.slot k)) ∧
          (∃ y, Tab.get v.dsp.frames fr = some y ∧
            { y.job with pc := j.pc, lateAt := j.lateAt, holdEnd := j.holdEnd, stores := j.stores } = j ∧
            y.job.pc = j.pc + ilen f ∧ ∀ k, k < e / 8 → ∃ w, Tab.get y.words k = some w ∧
              (∀ w', (u.slot slot).word k = some w' → w = w') ∧ ((u.slot slot).word k = none → w.val = 0 ∧ w.pois = true)) ∧
          (∀ k, k ≠ fr → Tab.get v.dsp.frames k = Tab.get u.dsp.frames k) ∧
          ⟨j.inst, j.task, j.ready, some fr⟩ ∈ v.dsp.ready ∧ { v with pil := u.pil, cnt := u.cnt, dsp := u.dsp } = u ∧ MemSame u v 0 0) ∧
        (u.preemptDue slot j u.tally = true → j.calls ≠ [] ∨ (j.holds = false ∧ 1024 ≤ fr) →
          Completes (exec (.yield t slot f x) s) fun v => ∃ j', OnlyJob u v slot j' ∧ Advances j j' f) ∧
        (u.preemptDue slot j u.tally = true → j.calls = [] → j.holds = true →
          Completes (exec (.yield t slot f x) s) fun v => ∃ j', OnlyJob u v slot j' ∧ j'.pc = j.pc + ilen f ∧
            j'.holdEnd = some (j.holdEnd.getD (u.tally + 240 * u.tt.holdlim)) ∧
            j'.lateAt = some (j.lateAt.getD u.tally) ∧ { j' with pc := j.pc, holdEnd := j.holdEnd, lateAt := j.lateAt } = j)) ∧
      (fX f = false → (j.reg (fGA f)).pois = false → u.roomFor 1 → u.building j.handle = none →
        Completes (exec (.note t slot f x) s) fun v => (∃ j', v.job slot = some j' ∧ Advances j j' f) ∧
          v.lnd.nq = u.lnd.nq ++ [noticeCell u.clk.blkNum 0x8C j.dom j.handle u.tally
            [u.jobWord slot j, BitVec.ofNat 64 (fFN f), j.val (fGA f)]] ∧
          (∀ k, k ≠ slot.val → v.slot k = u.slot k) ∧ { v with pil := u.pil, cnt := u.cnt, lnd := u.lnd, pins := u.pins } = u ∧
          MemSame u v 0 0)

/-- R181, R182, R200, R238: TRAP faults the job with cause 0x1D: LASTF shows the cause, slot and PC; JOB_FAULT is raised; every job,
instance and save frame of the request is gone; the jobs of other requests stand, and so do all of node memory and the entries
of other requests. R162, R164, R165: END of a job that is not the verdict task's, with no call outstanding, frees its slot, adds
the task to DONE, and its dependences are to be resolved; semaphores and credits are released. A verdict task without a verdict faults with
NOVERDICT. With one, where nothing else of the Ramp falls at its stamp (`still`), 03 R45, R47, R50, R56, R59: an answer chunk's verdict raises the
covered tokens and judges the chunk, one with ESC raises ESCALATE, and a STOP that covers a token stops the request from the chunk on; a late
one raises LATE_VERDICT, a second one is discarded; a prompt's verdict goes to Verdict Out and ends the prompt. -/
def Obligations.TrapAndEndLeaveSlot : Prop :=
  (∀ (t : Stamp) (slot : Fin 64) (f : BitVec 26) (x : BitVec 32) (s u : State) (j : Job), u = s.upTo t (kSub 5) → fX f = false →
    u.Issues slot j f (guardA f) [] [] → fGD f = 0 → fGA f = 0 → fGB f = 0 → fFN f = 0 → u.TabsSound →
      Completes (exec (.trap t slot (0x33#6 ++ f) x) s) fun v =>
        v.pil.lastf = BitVec.ofNat 64 (0x1D + slot * 2 ^ 8 + j.pc / 4 % 2 ^ 17 * 2 ^ 14 + j.dom * 2 ^ 32) ∧
        (u.roomFor 1 → u.building j.handle = none → noticeCell u.clk.blkNum 0x8B j.dom j.handle u.tally
          [BitVec.ofNat 64 (0x1D + j.pc / 4 % 2 ^ 17 * 2 ^ 8), u.jobWord slot j] ∈ v.lnd.nq) ∧
        (∀ k j', v.job k = some j' → j'.handle ≠ j.handle) ∧
        (∀ k j', u.job k = some j' → j'.handle ≠ j.handle → v.job k = some j') ∧
        (∀ p, p ∈ v.dsp.insts ↔ p ∈ u.dsp.insts ∧ p.2.handle ≠ j.handle) ∧
        (∀ p, p ∈ v.dsp.frames ↔ p ∈ u.dsp.frames ∧ p.2.job.handle ≠ j.handle) ∧
        (∀ i, i ≠ hIdx j.handle → v.entry i = u.entry i) ∧ MemSame u v 0 0) ∧
  (∀ (t : Stamp) (slot : Fin 64) (f : BitVec 26) (x : BitVec 32) (s u : State) (j : Job) (g : GInst), u = s.upTo t (kSub 5) →
    fX f = false → u.Issues slot j f (guardA f) [] [] → fGD f = 0 → fGA f = 0 → fGB f = 0 → fFN f = 0 → j.calls = [] →
    u.inst j.inst = some g →
      (j.task ≠ g.vtask →
        Completes (exec (.endJob t slot f x) s) fun v => v.job slot = none ∧
          (∀ k, k ≠ slot.val → SameButStores (u.slot k) (v.slot k)) ∧
          (∃ g', v.inst j.inst = some g' ∧ g'.done = g.done ||| (1#64 <<< j.task) ∧
            { g' with done := g.done, passes := g.passes } = g) ∧
          (∀ k, k ≠ j.inst → k ≠ u.rootOf j.inst → v.inst k = u.inst k) ∧ ⟨j.inst, u.tally, 1#64 <<< j.task⟩ ∈ v.dsp.resolve ∧
          (∀ n, n ∈ j.sems → n < 16 → ((v.domOf j.dom).sem n).holder = none) ∧
          (∀ d, d ≠ j.dom → v.domOf d = u.domOf d) ∧ (∀ i, i ≠ hIdx j.handle → v.entry i = u.entry i) ∧ MemSame u v 0 0) ∧
      ((j.task = g.vtask → g.verdict ≠ none) → Completes (exec (.endJob t slot f x) s) fun v => v.job slot = none) ∧
      (∀ (w : Word) (act : Act) (i : Nat), j.task = g.vtask → g.verdict = some w → actOf (fld w 0 3) = some act → g.parent = none →
        g.screen = false → u.live g.handle = some i → u.rampEn = true →
        let e := u.entry i
        let esc := bitAt w 3
        let hit := fun (n : Nat) => fld w 12 9 = 0 ∨ (fld w 4 8 ≤ n ∧ n < fld w 4 8 + fld w 12 9)
        let still := u.tok.path = [] ∧ u.ramp.due = [] ∧ u.lnd.wait = [] ∧
          (∀ x, x ∈ e.req.chunks → x.judged ≠ none ∨ x.set.passthru = true ∨ u.tally < x.f + 2400 * x.set.deadline) ∧
          (∀ x, e.req.openChunk = some x → u.tally < x.f + 240 * x.set.close + 10)
        let out := fun (v : State) => (u.tally, BitVec.ofNat 128 ((u.handleOf i).toNat + act.code * 2 ^ 32 + nb esc * 2 ^ 35 + u.tally * 2 ^ 64)) ∈
          v.ramp.voq
        let room := u.roomFor 1 ∧ e.req.build = none
        (∀ c, still → g.answer = true → u.chunk i g.k = some c → c.verdict = none →
          (c.missed = false → c.set.passthru = false → u.tally < c.f + 2400 * c.set.deadline →
            (act ≠ .stop → Completes (exec (.endJob t slot f x) s) fun v => ∃ d, v.chunk i g.k = some d ∧ d.verdict = some u.tally ∧
              d.judged = (c.closed.map fun y => max y u.tally) ∧ d.esc = (c.esc || esc) ∧
              d.toks = c.toks.mapIdx (fun n y => if hit n then { y with act := Act.max y.act act } else y)) ∧
            (act = .stop → u.rampTakes i = true → (∃ n, n < c.toks.length ∧ hit n) → Completes (exec (.endJob t slot f x) s) fun v =>
              (v.entry i).req.stop = some ⟨1, u.tally⟩ ∧ (v.entry i).state = (if e.state = .recover then .recover else .stopped) ∧
              ∀ d, d ∈ (v.entry i).req.chunks → d.num < g.k) ∧
            (esc = true → room → Completes (exec (.endJob t slot f x) s) fun v =>
              noticeCell u.clk.blkNum 0x81 e.dom (u.handleOf i) u.tally [BitVec.ofNat 64 (1 + act.code * 2 ^ 2 + g.k * 2 ^ 32), 0] ∈ v.lnd.nq)) ∧
          (c.missed = true → room → Completes (exec (.endJob t slot f x) s) fun v =>
            noticeCell u.clk.blkNum 0x86 e.dom (u.handleOf i) u.tally [BitVec.ofNat 64 (g.k + act.code * 2 ^ 32 + nb esc * 2 ^ 35)] ∈ v.lnd.nq ∧
            (act ≠ .stop → ∃ d, v.chunk i g.k = some d ∧ d.verdict = some u.tally ∧ d.toks = c.toks ∧ d.judged = c.judged))) ∧
        (∀ c, still → g.answer = true → u.chunk i g.k = some c → c.verdict ≠ none →
          Completes (exec (.endJob t slot f x) s) fun v => (v.entry i).req.chunks = e.req.chunks) ∧
        (still → g.answer = false → e.req.pwin = true → u.tally < e.pstamp + 2400 * e.pdl → e.req.oversize = false → e.req.stop = none →
          e.req.ended = false → e.state = .prompt → Completes (exec (.endJob t slot f x) s) fun v => out v ∧ (v.entry i).req.pwin = false ∧
            (act ≠ .stop → (v.entry i).state = .answer) ∧
            (act = .stop → (v.entry i).state = .stopped ∧ (v.entry i).endv = true ∧ (e.endv = false → (v.entry i).outcome = 6)))) ∧
      (j.task = g.vtask → g.verdict = none → Completes (exec (.endJob t slot f x) s) fun v => FaultsWith u v slot 0x06))

/-- R200, R201, R203, R204, R207: of every Salm instruction: one that runs past the program faults with PCBOUND, and one whose encoding is
not legal (a field that it does not use, an undefined function code or flag, an X that it does not permit) with ILLEGAL, whether or
not the guard holds; a legal one whose guard fails only advances the PC. An instruction of a suspended job, or of a slot with no
job, has no effect.
Choices of this model on which it rests: log entry 10. -/
def Obligations.SalmGuardsAndBounds : Prop :=
  ∀ (i : Instr) (op : BitVec 6) (t : Stamp) (slot : Fin 64) (f : BitVec 26) (x : BitVec 32) (s u : State),
    salmParts i = some (op, t, slot, f, x) → u = s.upTo t (kSub 5) →
      (u.job slot = none → exec i s = .next u) ∧
      (∀ j, u.job slot = some j → j.wait ≠ .no → exec i s = .next u) ∧
      (∀ j, u.job slot = some j → j.wait = .no → u.running = true → 4 * j.nword < j.pc + ilen f →
        Completes (exec i s) fun v => FaultsWith u v slot 0x11) ∧
      (∀ j, u.AtWord slot j f → legalForm op f = false → Completes (exec i s) fun v => FaultsWith u v slot 0x10) ∧
      (∀ j, u.AtWord slot j f → legalForm op f = true → j.pred (guardOf op f).1 = (guardOf op f).2 →
        Completes (exec i s) fun v => ∃ j', OnlyJob u v slot j' ∧ Advances j j' f)

/-- R189–R192, R200, R216: of LD, LDS and ST: a misaligned address faults with ALIGN, one in no area with BOUNDS, one in an unmapped
window with NOMAP; a store to a page of another owner or generation with PAGE, and one to the result words, or to a page area
that Vyath maintains, with WPROT. R191: a poisoned operand faults with POISONUSE where the rule says so: in a comparison, as a base address, a jump
target, a page or window number, a result to POST, a SKIP set, a verdict, a semaphore, a pool or a count, an extent or a NOTE value.
Choices of this model on which it rests: log entry 10. -/
def Obligations.AddressAndPoisonFaults : Prop :=
  (∀ (t : Stamp) (slot : Fin 64) (f : BitVec 26) (x : BitVec 32) (s u : State) (j : Job), u = s.upTo t (kSub 5) →
    u.Issues slot j f (guardB f) [fGA f, fGD f] [fGD f] → (j.reg (fGA f)).pois = false →
      let n := 2 ^ fSZ f
      let a := (j.val (fGA f) + offD f x).toNat
      let loads := fun (c : Nat) => Completes (exec (.ld t slot f x) s) (fun v => FaultsWith u v slot c) ∧
        Completes (exec (.lds t slot f x) s) (fun v => FaultsWith u v slot c)
      let stores := fun (c : Nat) => Completes (exec (.st t slot f x) s) fun v => FaultsWith u v slot c
      (u.areaBusy j a n false = false → (a % n ≠ 0 → loads 0x12) ∧ (a % n = 0 → 0x50200 ≤ a → loads 0x13) ∧
        (a % n = 0 → 0x10000 ≤ a → a < 0x50000 → u.winRun j (a / 0x10000 - 1) = none → loads 0x15)) ∧
      (u.areaBusy j a n true = false → (a % n ≠ 0 → stores 0x12) ∧ (a % n = 0 → 0x50200 ≤ a → stores 0x13) ∧
        (a % n = 0 → 0x50000 ≤ a → a < 0x50200 → stores 0x14) ∧
        (a % n = 0 → 0x10000 ≤ a → a < 0x50000 → u.winRun j (a / 0x10000 - 1) = none → stores 0x15) ∧
        (a % n = 0 → 0x10000 ≤ a → a < 0x50000 → u.winWaits j a = false → u.winTrip j a true = false →
          u.winLost j a = none → ∀ r, u.winRun j (a / 0x10000 - 1) = some r →
          (u.pageOk r.page r.owner r.gen = false → stores 0x17) ∧
          (u.pageOk r.page r.owner r.gen = true → r.prog (a % 0x10000) = false → stores 0x14)))) ∧
  (∀ (t : Stamp) (slot : Fin 64) (f : BitVec 26) (x : BitVec 32) (s u : State) (j : Job), u = s.upTo t (kSub 5) →
    (u.Issues slot j f (guardA f) [fGA f, fGB f] [fGD f] → gbOk f = true →
      (j.reg (fGA f)).pois = true ∨ (j.op2 f x).pois = true →
      ∀ i, i ∈ (if fFN f < 7 ∧ fGD f < 8 then [Instr.cmp t slot f x] else []) ++ (if fFN f < 4 ∧ fGD f < 8 then [.fcmp t slot f x] else []) ++
          (if fFN f = 0 then [.jal t slot f x, .vmerge t slot f x] else []) →
        Completes (exec i s) fun v => FaultsWith u v slot 0x19) ∧
    (u.Issues slot j f (guardA f) [fGA f, fGB f] [fGD f] → fX f = false → fFN f = 0 →
      (j.reg (fGA f)).pois = true ∨ (j.reg (fGB f)).pois = true →
      ∀ i, i ∈ (if fGD f = 0 then [Instr.mapw t slot f x, .crrel t slot f x] else []) ++ [.cracq t slot f x] →
        Completes (exec i s) fun v => FaultsWith u v slot 0x19) ∧
    (u.Issues slot j f (guardA f) [fGA f] [fGD f] → fX f = false → fGB f = 0 → fFN f = 0 → (j.reg (fGA f)).pois = true →
      ∀ i, i ∈ (if fGD f = 0 then [Instr.post t slot f x, .skipTasks t slot f x, .semrel t slot f x, .verdict t slot f x,
          .yield t slot f x, .note t slot f x] else []) ++ [.semacq t slot f x] →
        Completes (exec i s) fun v => FaultsWith u v slot 0x19) ∧
    (u.Issues slot j f (guardB f) [fGA f, fGD f] [fGD f] → (j.reg (fGA f)).pois = true →
      ∀ i, i ∈ [Instr.cmpi t slot f x, .ld t slot f x, .lds t slot f x, .st t slot f x, .ldm t slot f x] →
        Completes (exec i s) fun v => FaultsWith u v slot 0x19))

/-! ### Token ports -/

/-- What a transfer leaves alone until its later stages: every entry but its own, node memory, and all but the token tier, the
Manifest and the counters. -/
def Sys2Proof.Machine.CaptureFrame (u v : State) (i : Nat) : Prop :=
  (∀ k, k ≠ i → v.entry k = u.entry k) ∧ (∀ k, k ≠ i → v.four k = u.four k) ∧ v.tok.hdrs = u.tok.hdrs ∧ v.tok.pool = u.tok.pool ∧
    v.tok.masks = u.tok.masks ∧ { v with tok := u.tok, man := u.man, cnt := u.cnt } = u ∧ MemSame u v 0 0

/-- The merged verdict of states x (02 R28): the highest action of the enabled slots' headers, the OR of their ESC bits, and the greatest SPAN
among those that have the action. -/
def Sys2Proof.Machine.State.Merged (u : State) (ep : Epoch) (x : Four) (vd : TokVerdict) : Prop :=
  let hs := (slotStates ep.slotEn x).map fun p => u.hdr p.2
  (∀ h, h ∈ hs → (hdrAct h).code ≤ vd.act.code) ∧ ((∃ h, h ∈ hs ∧ hdrAct h = vd.act) ∨ (hs = [] ∧ vd.act = .pass)) ∧
    (vd.esc = true ↔ ∃ h, h ∈ hs ∧ bitAt h 55 = true) ∧ (∀ h, h ∈ hs → hdrAct h = vd.act → fld h 57 5 ≤ vd.span) ∧
    (vd.span = 0 ∨ ∃ h, h ∈ hs ∧ hdrAct h = vd.act ∧ fld h 57 5 = vd.span)

/-- What the descriptor w says of states x (02 R29, R31, R41): MASK_ID and its generation, the exceptions in slot order, at most eight, and
the forced token: the one candidate, or STOP_TOK with DEADEND where candidates differ, where the one candidate is denied, or where,
without a candidate, the mask and the exceptions let no other token through. With MASK_EN = 0 it constrains nothing. -/
def Sys2Proof.Machine.State.Describes (u : State) (ep : Epoch) (x : Four) (w : BitVec 256) : Prop :=
  let items := (slotStates ep.slotEn x).flatMap fun p => extItems (u.ext p.2)
  let exc := (items.filter fun y => decide (y.1 = 1) || decide (y.1 = 2)).take 8
  let cand := fun (c : Nat) => (3, c) ∈ items
  let denied := fun (c : Nat) => (1, c) ∈ exc
  let mid := if bitAt ep.slotEn 0 then fld (u.ext x.a0) 0 16 else 0xFFFF
  let force := fun (c : Nat) (dead : Bool) => fld w 64 18 = c ∧ w.getLsbD 82 = true ∧ w.getLsbD 83 = dead
  let shut := mid ≠ 0xFFFF ∧ (u.mask mid).popx ≤ 8 ∧ (∀ c, c ∈ (u.mask mid).members → denied c) ∧
    ∀ c, (2, c) ∈ exc → c = ep.stopTok ∨ denied c
  (u.maskEn = false → fld w 40 16 = 0xFFFF ∧ fld w 56 8 = 0 ∧ fld w 88 4 = 0 ∧ w.getLsbD 82 = false ∧ w.getLsbD 83 = false) ∧
    (u.maskEn = true → fld w 40 16 = mid ∧ fld w 56 8 = (if mid = 0xFFFF then 0 else (u.mask mid).gen) ∧
      w.getLsbD 39 = decide (1024 ≤ mid ∧ mid ≤ 65534) ∧ fld w 88 4 = exc.length ∧
      (∀ k y, exc[k]? = some y → fld w (104 + 19 * k) 18 = y.2 ∧ w.getLsbD (122 + 19 * k) = decide (y.1 = 2)) ∧
      (∀ c, cand c → (∀ b, cand b → b = c) → ¬ denied c → force c false) ∧
      (∀ c, cand c → (∃ b, cand b ∧ b ≠ c) ∨ denied c → force ep.stopTok true) ∧
      ((∀ c, ¬ cand c) → shut → force ep.stopTok true) ∧
      ((∀ c, ¬ cand c) → ¬ shut → w.getLsbD 82 = false ∧ w.getLsbD 83 = false))

/-- STOP_TOK and the generations of the masks fit their fields in a descriptor. -/
def Sys2Proof.Machine.State.DescFits (u : State) (ep : Epoch) : Prop := ep.stopTok < 2 ^ 18 ∧ ∀ n, (u.mask n).gen < 256

/-- R19, R21–R25, R28, R29, R31, R32, R41, R146: a TOKEN captured on a ready lane with its spacing kept advances each enabled automaton of its
request to the next state of the token, leaves the others, adds 1 to PEND, and joins the path with its capture stamp, the verdict and the
descriptor of its new states, and its notices: a TOKEN_NOTE of a state that asks for one, ESCALATE, DEAD_END. One whose lookup fails
changes no automaton and no PEND, and its descriptor is the STALE one of R23. One that breaks the spacing is not captured, only
counted. (No word is under repair; `RepairMarksReaders` says what holds of a transfer that reads one.)
Choices of this model on which it rests: log entry 7. -/
def Obligations.TokenAdvancesAutomata : Prop :=
  ∀ (t : Stamp) (lane : Fin 8) (h : Handle) (tok : BitVec 18) (resv : BitVec 30) (s u : State), u = s.upTo t 0 →
    u.laneReady lane u.tally = true → u.wch.repairs = [] →
      (spaced (u.lastXfer h) u.tally = true → ∀ i ep, u.lookup h .token = some i → u.epochOf (u.entry i) = some ep →
        Completes (exec (.token t lane h tok resv) s) fun v => CaptureFrame u v i ∧
          v.four i = ⟨if bitAt ep.slotEn 0 then u.nextState (u.four i).a0 tok.toNat else (u.four i).a0,
            if bitAt ep.slotEn 1 then u.nextState (u.four i).a1 tok.toNat else (u.four i).a1,
            if bitAt ep.slotEn 2 then u.nextState (u.four i).a2 tok.toNat else (u.four i).a2,
            if bitAt ep.slotEn 3 then u.nextState (u.four i).a3 tok.toNat else (u.four i).a3⟩ ∧
          (v.entry i).pend = ((u.entry i).pend + 1) % 4 ∧ (v.entry i).committed = (u.entry i).committed ∧
          (∃ f, v.tok.path = u.tok.path ++ [f] ∧ f.kind = .token ∧ f.lane = lane.val ∧ f.handle = h ∧ f.stamp = u.tally ∧ f.passed = true ∧
            f.stage = 7 ∧ ∃ vd, f.path = [⟨tok.toNat, vd⟩] ∧ u.Merged ep (v.four i) vd ∧
            ((∃ n, n ∈ f.notes ∧ n.1 = 0x81) ↔ vd.esc = true) ∧
            ((∃ n, n ∈ f.notes ∧ n.1 = 0x82) ↔ ∃ p, p ∈ slotStates ep.slotEn (v.four i) ∧ bitAt (u.hdr p.2) 56 = true) ∧
            (u.DescFits ep → ∃ w, f.desc = some w ∧ u.Describes ep (v.four i) w ∧ fld w 0 32 = h.toNat ∧ w.getLsbD 38 = false ∧
              w.getLsbD 84 = decide (vd.act = .stop) ∧ fld w 92 12 = u.tally % 2 ^ 12 ∧
              ((∃ n, n ∈ f.notes ∧ n.1 = 0x83) ↔ w.getLsbD 83 = true)))) ∧
      (spaced (u.lastXfer h) u.tally = true → u.lookup h .token = none →
        Completes (exec (.token t lane h tok resv) s) fun v => (∀ k, v.four k = u.four k) ∧ (∀ k, (v.entry k).pend = (u.entry k).pend) ∧
          (∃ f, v.tok.path = u.tok.path ++ [f] ∧ f.lane = lane.val ∧ f.stamp = u.tally ∧ f.passed = false ∧ f.path = [] ∧
            f.desc = some (BitVec.ofNat 256 (h.toNat + 0xFFFF * 2 ^ 40 + 2 ^ 87 + u.tally % 2 ^ 12 * 2 ^ 92))) ∧
          { v with tok := u.tok, man := u.man, cnt := u.cnt } = u ∧ MemSame u v 0 0) ∧
      (spaced (u.lastXfer h) u.tally = false →
        Completes (exec (.token t lane h tok resv) s) fun v => { v with cnt := u.cnt } = u)

/-- R28, R29, R31, R35–R38, R372: of transfers with their spacing kept that pass the lookup. A sound node's verdict and descriptor are those of
its own states, a PRIME's descriptor that of the committed ones. A sound NODE 0 opens a step in a free frame and closes an open
one, and is not captured while every frame is in use; a sound later NODE joins the open step; neither changes a committed automaton
state. A NODE that breaks a rule of R35 brings one BADTREE notice with the lowest REASON and a descriptor that forces STOP_TOK, and counts
in SPEC_N if it stands behind a node 0 of an open step. An ACCEPT of a sound node closes the step,
makes that node's states the committed ones and brings the tokens of its path; a PRIME changes no automaton state and brings no
token.
Choices of this model on which it rests: log entry 31. -/
def Obligations.TreeTransfers : Prop :=
  ∀ (t : Stamp) (lane : Fin 8) (h : Handle) (tok : BitVec 18) (node parent : BitVec 6) (root : Bool) (resv : BitVec 30)
      (s u : State) (i : Nat) (ep : Epoch), u = s.upTo t 0 → u.laneReady lane u.tally = true → u.epochOf (u.entry i) = some ep →
      u.wch.repairs = [] → ep.stopTok < 2 ^ 18 →
    let st := (u.entry i).req.step
    let n := node.toNat
    let p := parent.toNat
    let brk := u.treeBreaks (if n = 0 then none else st) lane n p root
    let pushes := fun (v : State) (f : Flight) => v.tok.path = u.tok.path ++ [f] ∧ f.lane = lane.val ∧ f.handle = h ∧ f.stamp = u.tally
    let told := fun (f : Flight) (y : TNode) => u.Merged ep y.states y.v ∧ (u.DescFits ep → ∃ w, f.desc = some w ∧
      u.Describes ep y.states w ∧ fld w 32 6 = n ∧ w.getLsbD 38 = true ∧ w.getLsbD 84 = decide (y.v.act = .stop))
    (spaced (u.nodePred h n p root) u.tally = true → n = 0 → brk = none → u.freeFrame = none →
      Completes (exec (.node t lane h tok node parent root resv) s) fun v => { v with cnt := u.cnt } = u) ∧
    (u.lookup h .node = some i → spaced (u.nodePred h n p root) u.tally = true →
      (n = 0 → brk = none → ∀ fr, u.freeFrame = some fr → Completes (exec (.node t lane h tok node parent root resv) s) fun v =>
        CaptureFrame u v i ∧ v.four i = u.four i ∧ (v.entry i).spec = true ∧ (v.entry i).specN = 1 ∧ (v.entry i).frame = fr ∧
        (v.entry i).steps = ((u.entry i).steps + 1) % 2 ^ 32 ∧ ((v.entry i).req.step.map Step.frame) = some fr ∧
        ∃ f x, pushes v f ∧ f.frame = st.map Step.frame ∧ Tab.get (v.tframe fr).nodes 0 = some x ∧ x.bad = false ∧ x.tok = tok.toNat ∧
          x.stamp = u.tally ∧ x.states = u.advance ep.slotEn (u.four i) tok.toNat ∧ told f x) ∧
      (n ≠ 0 → brk = none → ∀ x, st = some x → Completes (exec (.node t lane h tok node parent root resv) s) fun v =>
        CaptureFrame u v i ∧ v.four i = u.four i ∧ (v.entry i).specN = min 64 ((u.entry i).specN + 1) ∧
        ((v.entry i).req.step = some { x with next := n + 1 }) ∧
        ∃ f y, pushes v f ∧ Tab.get (v.tframe x.frame).nodes n = some y ∧ y.bad = false ∧ y.tok = tok.toNat ∧
          y.parent = (if root then none else some p) ∧ told f y ∧
          (root = true → y.states = u.advance ep.slotEn (u.four i) tok.toNat) ∧
          (root = false → ∀ z, Tab.get (u.tframe x.frame).nodes p = some z →
            y.states = u.advance ep.slotEn z.states tok.toNat)) ∧
      (∀ r, brk = some r → Completes (exec (.node t lane h tok node parent root resv) s) fun v => CaptureFrame u v i ∧ v.four i = u.four i ∧
        (v.entry i).specN = (if n ≠ 0 ∧ st.isSome then min 64 ((u.entry i).specN + 1) else (u.entry i).specN) ∧
        ∃ f, pushes v f ∧ f.path = [] ∧ f.notes = [(0x84, [BitVec.ofNat 64 (n + r * 2 ^ 6 + lane * 2 ^ 10)])] ∧
          (∃ w, f.desc = some w ∧ fld w 64 18 = ep.stopTok % 2 ^ 18 ∧ w.getLsbD 82 = true ∧ w.getLsbD 86 = true))) ∧
    (u.lookup h .accept = some i → spaced (u.acceptPred h) u.tally = true → ∀ x y, st = some x →
      Tab.get (u.tframe x.frame).nodes n = some y → y.bad = false →
      Completes (exec (.accept t lane h node false resv) s) fun v => CaptureFrame u v i ∧ v.four i = y.states ∧ (v.entry i).req.step = none ∧
        ∃ f, pushes v f ∧ f.frame = some x.frame ∧ f.path = (pathOf (u.tframe x.frame).nodes 16 n []).map fun z => ⟨z.tok, z.v⟩) ∧
    (u.lookup h .accept = some i → spaced (u.acceptPred h) u.tally = true → ∀ x, st = some x →
      Completes (exec (.accept t lane h node true resv) s) fun v => CaptureFrame u v i ∧ v.four i = u.four i ∧ (v.entry i).req.step = none ∧
        ∃ f, pushes v f ∧ f.frame = some x.frame ∧ f.path = []) ∧
    (u.lookup h .prime = some i → spaced (u.lastXfer h) u.tally = true →
      Completes (exec (.prime t lane h resv) s) fun v => CaptureFrame u v i ∧ v.four i = u.four i ∧
        (v.entry i).committed = (u.entry i).committed ∧ (v.entry i).pend = (u.entry i).pend ∧ ∃ f, pushes v f ∧ f.path = [] ∧
        (u.DescFits ep → ∃ w, f.desc = some w ∧ u.Describes ep (u.four i) w ∧ w.getLsbD 38 = false ∧ w.getLsbD 84 = false))

/-- The token log takes the token at position pos, or does not hold it (R295, 13 R309): no check of the memory side fails. -/
def Sys2Proof.Machine.State.LogTakes (s : State) (i pos tok : Nat) : Prop :=
  let e := s.entry i
  let a := areaPages (s.runs e.plist e.npage) 2 0
  s.mem.en = false ∨ areaSize a < 4 * pos + 4 ∨ (s.wrArea e.dom a (4 * pos) (leBytes 4 tok)).2 = true

/-- R22, R32, R42–R44, R46, R50, R61, R63, R64, 00 R10: with one transfer in the path. With no transfer in the path and nothing that waits,
only the tally moves. T11: where it comes before the event at hand (at an earlier stamp, or at its own stamp, where the event's subsystem
stands behind the token tier), the descriptor is on Mask Out with the stamp of T11, the transfer has left the path, and no entry and no
byte of memory has changed. T7 of a transfer of one token: the verdict raises the held tokens at the SPAN positions before it; a STOP stops
the request from the chunk of the first covered token on, earlier chunks standing; in a pass-through chunk it covers nothing but stops.
T10 of a TOKEN: COMMITTED rises and PEND falls by 1; the token joins the open chunk that takes its stamp, or opens one with the domain's
settings; STOP_TOK, or the chunk's last place, closes the chunk; a chunk whose close window has passed closes first, at its close time; a
Hold that is full stops the request with HOLD_FULL; with the Ramp disabled, or the request stopped, nothing is held.
Choices of this model on which it rests: log entries 7 and 86. -/
def Obligations.PathStages : Prop :=
  ∀ (s : State) (t : Stamp) (key : Nat),
    let v := s.upTo t key
    let has := fun (at' k : Nat) => at' < t ∨ (at' = t ∧ k < key)
    let not := fun (at' k : Nat) => t < at' ∨ (at' = t ∧ key ≤ k)
    ((s.tok.path = [] ∧ s.ramp.due = [] ∧ s.lnd.wait = []) ∨ s.running = false → v = s.setTally t) ∧
    (∀ f w, s.running = true → s.ramp.due = [] → s.lnd.wait = [] → s.tok.path = [f] → f.stage = 11 → f.desc = some w →
      s.tally ≤ f.stamp + 11 → s.building f.handle = none → has (f.stamp + 11) (kSub 6) →
      drivenAt (f.stamp + 11) (Tab.getD v.pins.maskOut f.lane []) = some w ∧ v.tok.path = [] ∧ v.tally = max t s.tally ∧
        (∀ k, v.entry k = s.entry k) ∧ MemSame s v 0 0) ∧
    (∀ (f : Flight) (p : PathTok) (i : Nat), s.running = true → s.ramp.due = [] → s.lnd.wait = [] → s.tok.path = [f] → f.path = [p] →
      f.passed = true → f.fault = false → f.replay = false → s.live f.handle = some i → s.rampTakes i = true → s.tally ≤ f.stamp + 7 →
      s.tally ≤ t →
      let e := s.entry i
      let u := s.setTally (f.stamp + f.stage)
      let lo := f.pos - p.v.span
      let pass := s.passes i f.stamp
      let after := if e.state = .recover then EState.recover else .stopped
      (f.stage = 7 → has (f.stamp + 7) (kRamp 2) → not (f.stamp + 10) (kRamp 3) → OthersStand s v i ∧
        (∃ g, v.tok.path = [g] ∧ g.stage = 10 ∧ g.path = [p]) ∧
        (u.rampEn = false ∨ (pass = true ∧ p.v.act ≠ .stop) → v.entry i = e) ∧
        (u.rampEn = true → pass = false → p.v.act ≠ .stop → v.entry i = { e with req := { e.req with
          chunks := e.req.chunks.map fun c => { c with toks := c.toks.map fun h =>
            if lo ≤ h.pos ∧ h.pos < f.pos then { h with act := Act.max h.act p.v.act, esc := h.esc || p.v.esc } else h } } }) ∧
        (u.rampEn = true → p.v.act = .stop →
          let first := if pass then s.joinChunk i f.stamp 0 else (reachChunk lo f.pos e.req.chunks).getD (s.joinChunk i f.stamp 0)
          (v.entry i).req.stop = some ⟨1, f.stamp + 7⟩ ∧ (v.entry i).state = after ∧
          (∀ c, c ∈ (v.entry i).req.chunks → c.num < first) ∧
          (∀ c, c ∈ e.req.chunks → c.num < first → ∃ d, d ∈ (v.entry i).req.chunks ∧ d.num = c.num))) ∧
      (f.stage = 10 → f.kind = .token → f.frame = none → f.own = none → has (f.stamp + 10) (kRamp 3) → not (f.stamp + 11) (kSub 6) →
        s.TabsSound → e.req.mig = none → s.LogTakes i e.committed p.tok → 
        (∀ c d, c ∈ e.req.chunks → d ∈ e.req.chunks → c.num = d.num ∨ (c.closed = none ∧ d.closed = none) → c = d) →
        (∀ c, c ∈ e.req.chunks → c.num ≠ e.aseq) →
        let x := (s.domOf e.dom).ramp
        let eoa := decide ((s.epochOf e).map (fun q => q.stopTok) = some p.tok)
        let room := u.rampEn = true ∧ e.held < 2048 ∧ s.holdUse < 786432
        let h : Held := ⟨p.tok, e.committed, p.v.act, p.v.esc⟩
        let new : Chunk := ⟨e.aseq, f.stamp, x, [h], 1, [p.tok], none, none, none, false, false, .pass, false⟩
        let kept := fun (c : Chunk) => c.f ≤ f.stamp ∧ f.stamp < c.f + 240 * c.set.close ∧ c.count < c.set.chunk ∧ c.set.passthru = false
        OthersStand s v i ∧ (v.entry i).committed = (e.committed + 1) % 2 ^ 32 ∧ (v.entry i).pend = e.pend - 1 ∧
        (∃ g, v.tok.path = [g] ∧ g.stage = 11 ∧ g.desc = f.desc) ∧
        (u.rampEn = false → (v.entry i).req.chunks = e.req.chunks ∧ (v.entry i).held = e.held ∧ (v.entry i).eoa = e.eoa) ∧
        (room → eoa = false → ∀ c, e.req.openChunk = some c → kept c → c.count + 1 < c.set.chunk →
          (v.entry i).held = e.held + 1 ∧ (v.entry i).aseq = e.aseq ∧ (v.entry i).eoa = e.eoa ∧
          (v.entry i).req.chunks = e.req.chunks.map fun d => if d.num = c.num then
            { d with toks := d.toks ++ [h], count := d.count + 1, all := d.all ++ [p.tok] } else d) ∧
        (room → eoa = false → e.req.openChunk = none → 1 < x.chunk → x.passthru = false →
          (v.entry i).held = e.held + 1 ∧ (v.entry i).aseq = (e.aseq + 1) % 2 ^ 32 ∧ (v.entry i).req.chunks = e.req.chunks ++ [new]) ∧
        (room → eoa = false → ∀ c, e.req.openChunk = some c → c.f + 240 * c.set.close ≤ f.stamp → c.set.passthru = false → 1 < x.chunk →
          x.passthru = false → new ∈ (v.entry i).req.chunks ∧
            ∃ d, d ∈ (v.entry i).req.chunks ∧ d.num = c.num ∧ d.toks = c.toks ∧ d.closed = some (c.f + 240 * c.set.close + 10)) ∧
        (room → ∀ c, e.req.openChunk = some c → kept c → eoa = true ∨ c.set.chunk ≤ c.count + 1 →
          (v.entry i).eoa = (e.eoa || eoa) ∧ ∃ d, d ∈ (v.entry i).req.chunks ∧ d.num = c.num ∧ d.toks = c.toks ++ [h] ∧
            d.closed = some (f.stamp + 10) ∧ d.isEoa = (c.isEoa || eoa) ∧
            (((s.epochOf e).bind fun q => q.cgraph) = none → d.judged = some (f.stamp + 10)) ∧
            (((s.epochOf e).bind fun q => q.cgraph).isSome = true → s.dsp.startQ.length < 65535 →
              ∃ tr, tr ∈ v.dsp.startQ ∧ tr.isChunk (s.handleOf i) c.num = true ∧ tr.stamp = f.stamp + 10)) ∧
        (u.rampEn = true → 2048 ≤ e.held ∨ 786432 ≤ s.holdUse →
          (v.entry i).req.stop = some ⟨4, f.stamp + 10⟩ ∧ (v.entry i).state = after ∧
          (∀ c, c ∈ (v.entry i).req.chunks → c ∈ e.req.chunks ∧ c.num < s.joinChunk i f.stamp 0) ∧
          (s.roomFor 2 → e.req.build = none → noticeCell s.clk.blkNum 0x87 e.dom (s.handleOf i) (f.stamp + 10)
            [BitVec.ofNat 64 e.held] ∈ v.lnd.nq))))

/-- R34, 12 R265, R269: a Mask Read of an on-chip slot with its current generation, whose line no repair has in hand, returns the line's
512 bits (from bit 512·LINE on: DEDUCED, log entry 33) with OK four GCLK later, any other one a response without OK whose data is zero;
responses that are still to come stand; a second one on the channel at the same edge is not taken. 12
R268, R270: the word that stands first for its lane leaves on Token Out once its time has come, at most one an edge on a lane, and the first
verdict on Verdict Out 2 GCLK after it was queued; nothing else leaves either queue.
Choices of this model on which it rests: log entry 33. -/
def Obligations.PortWords : Prop :=
  ∀ (t : Stamp) (s : State),
    (∀ (chan : Fin 8) (id : BitVec 16) (gen : BitVec 8) (line : BitVec 9) (u : State), u = s.upTo t 0 → u.alive = true →
      let m := u.mask id.toNat
      let good := id.toNat < 1024 ∧ m.used = true ∧ m.gen = gen.toNat ∧ u.maskRepair id.toNat line.toNat u.tally = false
      let due := fun (v : State) (n : Fin 8) (at' : Stamp) => drivenAt at' (Tab.getD v.pins.maskRsp n [])
      (due u chan (u.tally + 4) ≠ none → exec (.maskRead t chan id gen line) s = .next u) ∧
      (due u chan (u.tally + 4) = none → Completes (exec (.maskRead t chan id gen line) s) fun v =>
        (good → due v chan (u.tally + 4) = some (true, m.bits.extractLsb' (512 * line.toNat) 512)) ∧
        (¬ good → due v chan (u.tally + 4) = some (false, 0)) ∧
        (∃ r, Tab.getD v.pins.maskRsp chan [] = (u.tally + 4, r) :: (Tab.getD u.pins.maskRsp chan []).take 15) ∧
        (∀ n, n ≠ chan → ∀ a, due v n a = due u n a) ∧
        { v with pins := u.pins, cnt := u.cnt } = u)) ∧
    (∀ (lane : Fin 8) (u : State) (w : OutWord), u = s.upTo t (kRamp 6) → u.alive = true → u.rampEn = true →
      (u.ramp.outq.find? fun w => decide (w.lane = lane.val)) = some w → w.since ≤ u.tally →
      let taken := (Tab.get u.pins.toWord lane).map (fun r => r.1) = some u.tally
      (taken → exec (.tokenOutWord t lane) s = .next u) ∧
      (¬ taken → Completes (exec (.tokenOutWord t lane) s) fun v => Tab.get v.pins.toWord lane = some (u.tally, w.word) ∧
        v.ramp.outq = u.ramp.outq.erase w ∧ v.ramp.voq = u.ramp.voq ∧ v.man = u.man ∧ MemSame u v 0 0)) ∧
    (∀ (u : State) (w : Stamp × BitVec 128) (r : List (Stamp × BitVec 128)), u = s.upTo t (kRamp 6) → u.alive = true → u.rampEn = true →
      u.ramp.voq = w :: r → w.1 + 2 ≤ u.tally → u.pins.voWord.map (fun x => x.1) ≠ some u.tally →
      Completes (exec (.verdictOutWord t) s) fun v => v.pins.voWord = some (u.tally, w.2) ∧ v.ramp.voq = r ∧
        v.ramp.outq = u.ramp.outq ∧ v.man = u.man ∧ MemSame u v 0 0)

/-! ### The Landing channel -/

/-- R241–R244, R246: a push stores the buffered cell with its end mark behind the others while fewer than 511 are in use; with 511 it
is dropped with the earlier cells of its message, and counted in a gap marker at the tail. A pop takes the head cell into
VY_LND_NQBUF and answers its tags; of an empty queue it answers zero and changes nothing. The flushes discard every whole message and keep
markers and an unfinished message; one of the notice queue within a popped message waits for that message's end (VY_LND_FLUSH.NQ reads 1
till then), and keeps what was queued after the flush. The decoder takes a marker off the head and raises CMD_GAP. Each takes the
port for its LCLK edge (12 R274). Nothing but the Landing, the counters and the pins changes.
R242: a one-cell message at the head that is no command is discarded without a completion if it is for another block, counted in
MISROUTE; otherwise it is answered with POISON (its OPCODE and TAG zero if its first word is unsound), FRAME or BAD_OP, the first
that applies in this order, and has no other effect.
Choices of this model on which it rests: log entries 11 and 89. -/
def Obligations.QueuesAndBadMessages : Prop :=
  (∀ (t : Stamp) (s u : State), u = s.upTo t 0 → u.alive = true → u.portFree = true →
    let at' := some (edgeUp 3 u.tally)
    let only := fun (v : State) => v.lnd.busyAt = at' ∧ { v with lnd := u.lnd, cnt := u.cnt, pins := u.pins } = u ∧ MemSame u v 0 0
    (∀ (data : Word), u.lnd.cqSkip = false →
      (u.lnd.cq.length < 511 → Completes (exec (.lndCqpush t data) s) fun v => only v ∧
        { v.lnd with cq := u.lnd.cq, busyAt := u.lnd.busyAt } = u.lnd ∧ v.lnd.cq = u.lnd.cq ++ [.cell u.lnd.cqbuf (bitAt data 0) 0]) ∧
      (511 ≤ u.lnd.cq.length → ∀ a b, u.lnd.cq = a ++ b → (∀ c, c ∈ b → c.ends = false) → (∀ c, a.getLast? = some c → c.ends = true) →
        Completes (exec (.lndCqpush t data) s) fun v => only v ∧ v.lnd.nq = u.lnd.nq ∧ v.lnd.cmdDrop = (u.lnd.cmdDrop + 1) % 65536 ∧
          v.lnd.cqSkip = (!bitAt data 0) ∧
          (∀ n, a.getLast? = some (.gap n) → v.lnd.cq = a.dropLast ++ [.gap (n + 1)]) ∧
          ((∀ n, a.getLast? ≠ some (.gap n)) → v.lnd.cq = a ++ [.gap 1]))) ∧
    (u.lnd.nq = [] → Completes (exec (.lndNqpop t) s) fun v => only v ∧ v.lnd = { u.lnd with busyAt := at' } ∧
      drivenAt (u.tally + 12) v.pins.cnData = some 0) ∧
    (∀ c r, u.lnd.nq = c :: r → u.lnd.nqFlush = none → Completes (exec (.lndNqpop t) s) fun v => only v ∧
      v.lnd = { u.lnd with nq := r, nqbuf := c.words, nqMid := !c.fin, busyAt := at' } ∧
      drivenAt (u.tally + 12) v.pins.cnData = some (pack 64 [(0, 1), (1, nb c.fin), (2, nb c.bad), (3, nb c.first)])) ∧
    (∀ c r n, u.lnd.nq = c :: r → u.lnd.nqFlush = some n → c.fin = true → Completes (exec (.lndNqpop t) s) fun v => only v ∧
      v.lnd.nqFlush = none ∧ v.lnd.nq = ((r.take n).filter fun c => c.gap) ++ r.drop n) ∧
    (∀ (data : Word) a b, bitAt data 0 = true → bitAt data 1 = false → u.lnd.cq = a ++ b → (∀ c, c ∈ b → c.ends = false) →
      (∀ c, a.getLast? = some c → c.ends = true) → Completes (exec (.lndFlushCq t data) s) fun v => only v ∧
        { v.lnd with cq := u.lnd.cq, busyAt := u.lnd.busyAt } = u.lnd ∧ v.lnd.cq = (a.filter fun c => c.isGap) ++ b) ∧
    (∀ (data : Word), bitAt data 0 = false → bitAt data 1 = true → u.lnd.nqMid = false →
      Completes (exec (.lndFlushNq t data) s) fun v => only v ∧
        { v.lnd with nq := u.lnd.nq, busyAt := u.lnd.busyAt } = u.lnd ∧ v.lnd.nq = u.lnd.nq.filter fun c => c.gap) ∧
    (∀ (data : Word), bitAt data 0 = false → bitAt data 1 = true → u.lnd.nqMid = true →
      Completes (exec (.lndFlushNq t data) s) fun v => only v ∧ v.lnd.nq = u.lnd.nq ∧ v.lnd.nqFlush ≠ none ∧
        (v.readReg 0x2030).map (fun w => bitAt w 1) = some true) ∧
    (∀ n r, u.lnd.cq = .gap n :: r → u.lndEn = true → u.roomFor 1 → Completes (exec (.cmdGap t) s) fun v => only v ∧
      v.lnd.cq = r ∧ v.lnd.nq = u.lnd.nq ++ [noticeCell u.clk.blkNum 0x8F 0 0 u.tally [BitVec.ofNat 64 n]])) ∧
  (∀ (t : Stamp) (s u : State) (m : CellWords) (bad : BitVec 8) (rest : List CqCell), u = s.upTo t 0 → u.alive = true →
    u.portFree = true → u.lndEn = true → u.lnd.opens.length < 512 → u.lnd.wait = [] → u.CmdsSound → u.lnd.cq = .cell m true bad :: rest →
      let w := wordOf m 0
      let frame := fld w 8 2 ≠ 0 ∨ fld w 24 4 ≠ 0 ∨ fld w 28 4 ≠ 0 ∨ fld w 56 8 ≠ 0
      (fld w 10 6 ≠ u.clk.blkNum → Completes (exec (.badOp t) s) fun v => OnlyLanding u v ∧
        v.lnd = { u.lnd with cq := rest, misroute := (u.lnd.misroute + 1) % 65536, busyAt := some (edgeUp 3 u.tally) }) ∧
      (fld w 10 6 = u.clk.blkNum → bad ≠ 0 → bitAt bad 0 = false → Completes (exec (.badOp t) s) fun v =>
        OnlyLanding u v ∧ Answered u v (fld w 0 8) m rest 0x15 []) ∧
      (fld w 10 6 = u.clk.blkNum → bitAt bad 0 = true → Completes (exec (.badOp t) s) fun v =>
        OnlyLanding u v ∧ v.lnd.cq = rest ∧ v.lnd.opens = u.lnd.opens ∧
          v.lnd.nq = u.lnd.nq ++ [completionCell u.clk.blkNum ⟨0, 0, 0, 0, u.tally, [], 0⟩ 0x15 u.tally []]) ∧
      (fld w 10 6 = u.clk.blkNum → bad = 0 → frame → Completes (exec (.badOp t) s) fun v =>
        OnlyLanding u v ∧ Answered u v (fld w 0 8) m rest 0x14 []) ∧
      (fld w 10 6 = u.clk.blkNum → bad = 0 → ¬ frame →
        fld w 0 8 ∉ [0x01, 0x02, 0x10, 0x11, 0x12, 0x13, 0x14, 0x15, 0x20, 0x21, 0x22, 0x23, 0x24, 0x30, 0x31, 0x32, 0x33, 0x34,
          0x35, 0x36] → Completes (exec (.badOp t) s) fun v => OnlyLanding u v ∧ Answered u v (fld w 0 8) m rest 0x13 []))

/-- R242, R249, R257, R260, 01 R12: FENCE and ECHO complete at their stamp with OK, ECHO with its words W3–W7; a FENCE lets the notices of
earlier stamps that a MIGRATE_IN or REUSE in progress holds back (log entry 80) enter the queue ahead of its completion, and waits
while a slot that began before it may still be forfeited (log entry 89). LOG_ARM draws a NONCE (a free
value, log entry 2), returns it and opens the erase window, which closes one second after its stamp. A command that requires
DOM 0 and carries another completes with PRIV and has no effect.
Choices of this model on which it rests: log entries 2, 80 and 89. -/
def Obligations.CommandsAnswer : Prop :=
  ∀ (t : Stamp) (s u : State) (m : CellWords) (rest : List CqCell), u = s.upTo t 0 →
    (u.Heads 0x01 m rest → (∀ p, p ∈ u.man.entries → p.2.req.build = none) →
      ((∀ p, p ∈ u.atRisk → u.tally ≤ p) → Completes (exec (.fence t) s) fun v => Answered u v 0x01 m rest 0x00 [] ∧ OnlyLanding u v) ∧
      ((∃ p, p ∈ u.atRisk ∧ p < u.tally) → Completes (exec (.fence t) s) fun v => Opened u v 0x01 m rest ∧ OnlyLanding u v ∧
        v.lnd.nq = u.lnd.nq ∧ v.lnd.wait = [⟨u.tally, .fence u.lnd.nextId⟩])) ∧
    (u.Heads 0x01 m rest → u.TabsSound → (∀ p, p ∈ u.atRisk → u.tally ≤ p) →
      let early := u.man.entries.flatMap fun p => ((p.2.req.build.map fun b => b.held).getD []).filterMap fun n =>
        if n.stamp < u.tally then some (noticeCell u.clk.blkNum n.op n.dom (u.handleOf p.1) n.stamp n.words) else none
      u.lnd.nq.length + u.lnd.opens.length + early.length + 1 ≤ 2047 → Completes (exec (.fence t) s) fun v =>
        v.lnd.nq = u.lnd.nq ++ early ++ [completionCell u.clk.blkNum (acceptedCmd u 0x01 m) 0x00 u.tally []] ∧
        v.lnd.cq = rest ∧ v.lnd.opens = u.lnd.opens ∧
        (∀ i b, (u.entry i).req.build = some b → v.entry i = { u.entry i with req := { (u.entry i).req with
          build := some { b with held := b.held.filter fun n => decide (u.tally ≤ n.stamp) } } }) ∧
        (∀ i, (u.entry i).req.build = none → v.entry i = u.entry i) ∧ OnlyLanding u { v with man := u.man }) ∧
    (u.Heads 0x02 m rest → Completes (exec (.echo t) s) fun v => OnlyLanding u v ∧
      Answered u v 0x02 m rest 0x00 [wordOf m 3, wordOf m 4, wordOf m 5, wordOf m 6, wordOf m 7]) ∧
    (u.Heads 0x35 m rest → domField m = 0 → Completes (exec (.logArm t) s) fun v =>
      let n := Config.nonce u.fresh
      Answered u v 0x35 m rest 0x00 [n.setWidth 64] ∧ v.lnd.nonce = some n ∧ v.lnd.armAt = u.tally ∧ v.fresh = u.fresh + 1 ∧
        OnlyLanding u { v with fresh := u.fresh }) ∧
    (domField m ≠ 0 →
      ∀ p, p ∈ [(0x20, Instr.domOpen t), (0x21, .domClose t), (0x30, .ttSwitch t), (0x31, .unitFence t), (0x32, .inject t),
          (0x33, .snapshot t), (0x34, .logRead t), (0x35, .logArm t), (0x36, .logErase t)] →
        u.Heads p.1 m rest → Completes (exec p.2 s) fun v => Answered u v p.1 m rest 0x12 [] ∧ OnlyLanding u v) ∧
    (let w := s.upTo t (kSub 1)
     w.running = true → w.lnd.nonce ≠ none →
      (w.lnd.armAt + 2400000000 ≤ w.tally → exec (.logArmWindowEnd t) s = .next { w with lnd := { w.lnd with nonce := none } }) ∧
      (w.tally < w.lnd.armAt + 2400000000 → exec (.logArmWindowEnd t) s = .next w))

/-! ### The request manifest -/

/-- R136, R139, R140, R250, R292: an ADMIT that passes every check allocates the entry that comes next: ANSWER with NP, else ADMITTED;
bound to the active epoch and at its start states; with the command's PRIO, PDL, PLIST and NPAGE; its page headers are written
and no other byte. The completion carries its handle, and every other entry stands. Otherwise the first failing check gives the
status, and there is no other effect. One that comes to its page list while VY_MEM_CTL.EN is 0 is not accepted yet (13 R309; log entry
84). -/
def Obligations.AdmitAllocates : Prop :=
  ∀ (t : Stamp) (s u : State) (m : CellWords) (rest : List CqCell), u = s.upTo t 0 → u.Heads 0x10 m rest → u.MemSound →
    let d := domField m
    let x := u.domOf d
    let np := bitAt (wordOf m 2) 4
    let pdl := fld (wordOf m 2) 5 20
    let plist := fld (wordOf m 3) 0 40
    let npage := fld (wordOf m 3) 40 8
    let good := pdl ≤ 1000000 ∧ fld (wordOf m 2) 25 39 = 0 ∧ fld (wordOf m 3) 48 16 = 0 ∧ ∀ w, w ∈ m.drop 4 → w = 0
    let refuse := fun st => Completes (exec (.admitReq t) s) fun v => Answered u v 0x10 m rest st [] ∧ OnlyLanding u v
    let quota := x.quota ≠ 0 ∧ x.quota ≤ u.inuse d
    let full := u.man.fresh = 65536 ∧ u.man.freed = []
    (u.man.en = false → refuse 0x04) ∧
    (u.man.en = true → x.isOpen = false → refuse 0x05) ∧
    (u.man.en = true → x.isOpen = true → (x.active.bind fun z => x.epoch z) = none → refuse 0x06) ∧
    (∀ sel ep, u.man.en = true → x.isOpen = true → x.active = some sel → x.epoch sel = some ep →
      (quota → refuse 0x07) ∧ (¬ quota → full → refuse 0x08) ∧
      (¬ quota → u.man.fresh ≤ 65536 → ¬ full → u.mem.en = false → exec (.admitReq t) s = .next u) ∧
      (u.mem.en = true → ¬ quota → u.man.fresh ≤ 65536 → ¬ full → u.pagesOk d plist npage = false → refuse 0x09) ∧
      (u.mem.en = true → ¬ quota → u.man.fresh ≤ 65536 → ¬ full → u.pagesOk d plist npage = true → ¬ good → refuse 0x0A) ∧
      (u.mem.en = true → ¬ quota → u.man.fresh ≤ 65536 → ¬ full → u.pagesOk d plist npage = true → good → ∀ i,
        (u.man.fresh < 65536 → i = u.man.fresh) → (u.man.fresh = 65536 → u.man.freed.head? = some i) →
        let h := mkHandle (u.entry i).gen i
        Completes (exec (.admitReq t) s) fun v => Answered u v 0x10 m rest 0x00 [h.setWidth 64] ∧ OthersStand u v i ∧
          v.entry i = { Entry.init (u.entry i).gen with
            state := if np then .answer else .admitted, dom := d, esel := sel, epoch := ep.num, prio := fld (wordOf m 2) 0 4
            np := np, pdl := pdl, plist := plist, npage := npage } ∧
          v.four i = ep.start ∧ (∀ k, k ≠ i → v.four k = u.four k) ∧
          (∀ a, (∀ r k, r ∈ u.runs plist npage → k < 2 ^ r.run → a < r.page + k * 65536 ∨ r.page + k * 65536 + 64 ≤ a) →
            v.byte a = u.byte a) ∧
          { v with man := u.man, tok := u.tok, mem := u.mem, lnd := u.lnd, cnt := u.cnt, pins := { v.pins with irq := u.pins.irq } } = u))

/-- R142, R144, R145, R251, R252: a CANCEL of an entry that is not FREE, STOPPED, CANCELLED or ENDED makes it CANCELLED with its END
raised (OUTCOME CANCEL unless END came before), answers 1, and leaves every other entry and node memory; otherwise it completes with
NOEFFECT. A RETIRE frees a PARKED entry, or an ended one whose END is raised; any other live entry is BUSY. A handle that is not live is
STALE and one of another domain FOREIGN.
Choices of this model on which it rests: log entries 94 and 99. -/
def Obligations.CancelAndRetire : Prop :=
  ∀ (t : Stamp) (s u : State) (m : CellWords) (rest : List CqCell), u = s.upTo t 0 →
    let h : Handle := BitVec.ofNat 32 (fld (wordOf m 2) 0 32)
    let dead := fun (st : EState) => st = .free ∨ st = .stopped ∨ st = .cancelled ∨ st = .ended
    (u.Heads 0x11 m rest → bitAt (wordOf m 2) 32 = false →
      (u.live h = none → Completes (exec (.cancel t) s) fun v => Answered u v 0x11 m rest 0x01 [0] ∧ OnlyLanding u v) ∧
      (∀ i, u.live h = some i →
        ((u.entry i).dom ≠ domField m → Completes (exec (.cancel t) s) fun v => Answered u v 0x11 m rest 0x10 [0] ∧ OnlyLanding u v) ∧
        ((u.entry i).dom = domField m → dead (u.entry i).state → Completes (exec (.cancel t) s) fun v =>
          Answered u v 0x11 m rest 0x02 [0] ∧ OnlyLanding u v) ∧
        ((u.entry i).dom = domField m → ¬ dead (u.entry i).state → (∀ k, (u.entry i).req.mig = some k → ∃ o, u.OpenIs k.cmd o) →
          (∀ b, (u.entry i).req.build = some b → ∃ o, u.OpenIs b.cmd o) → Completes (exec (.cancel t) s) fun v =>
          completionCell u.clk.blkNum (acceptedCmd u 0x11 m) 0x00 u.tally [1] ∈ v.lnd.nq ∧ v.lnd.cq = rest ∧
          OthersStand u v i ∧ MemSame u v 0 0 ∧ (v.entry i).state = .cancelled ∧ (v.entry i).endv = true ∧
          (v.entry i).gen = (u.entry i).gen ∧ (v.entry i).outcome = (if (u.entry i).endv then (u.entry i).outcome else 3) ∧
          (∀ k o, (u.entry i).state = .migOut → (u.entry i).req.mig = some k → u.OpenIs k.cmd o →
            completionCell u.clk.blkNum o 0x0E u.tally [] ∈ v.lnd.nq) ∧
          (∀ b o, (u.entry i).state = .migIn ∨ (u.entry i).state = .reuse → (u.entry i).req.build = some b → u.OpenIs b.cmd o →
            completionCell u.clk.blkNum o 0x0E u.tally [] ∈ v.lnd.nq) ∧
          (u.roomFor 2 → (u.entry i).req.build = none → (u.entry i).state = .admitted → (u.entry i).endv = false →
            noticeCell u.clk.blkNum 0x80 (u.entry i).dom (mkHandle (u.entry i).gen i) u.tally
              [3, BitVec.ofNat 64 ((u.entry i).committed + (u.entry i).released * 2 ^ 32), BitVec.ofNat 64 u.tally] ∈ v.lnd.nq)))) ∧
    (u.Heads 0x11 m rest → bitAt (wordOf m 2) 32 = true →
      (∀ p, p ∈ u.man.entries → p.2.dom = domField m → (p.2.state = .migIn ∨ p.2.state = .reuse) → ∀ b, p.2.req.build = some b →
        ¬ (b.srcBlk = fld (wordOf m 2) 33 6 ∧ b.src = h)) →
      Completes (exec (.cancel t) s) fun v => Answered u v 0x11 m rest 0x01 [0] ∧ OnlyLanding u v) ∧
    (u.Heads 0x12 m rest → ∀ i, u.live h = some i → (u.entry i).dom = domField m →
      let st := (u.entry i).state
      let may := st = .parked ∨ ((st = .stopped ∨ st = .cancelled ∨ st = .ended) ∧ (u.entry i).endv = true)
      (may → Completes (exec (.retire t) s) fun v => AnsweredToo u v 0x12 m rest 0x00 [] ∧ Freed (u.entry i) u v i ∧ OthersStand u v i ∧
        MemSame u v 0 0) ∧
      (¬ may → Completes (exec (.retire t) s) fun v => Answered u v 0x12 m rest 0x03 [] ∧ OnlyLanding u v)) ∧
    (u.Heads 0x12 m rest →
      (u.live h = none → Completes (exec (.retire t) s) fun v => Answered u v 0x12 m rest 0x01 [] ∧ OnlyLanding u v) ∧
      (∀ i, u.live h = some i → (u.entry i).dom ≠ domField m → Completes (exec (.retire t) s) fun v =>
        Answered u v 0x12 m rest 0x10 [] ∧ OnlyLanding u v))

/-- R138, R147–R149, R251: a MIGRATE_OUT of an entry that may move (ANSWER, PARKED, or ENDED with OUTCOME COMPLETED) puts it into MIG_OUT
with its MIG_H, mode and peer, and stays open; a state that may not is BUSY, an open speculative step BUSY_SPEC, an H below
COMMITTED, one that an ended or parked entry has not reached, or a FERRY move to this block BAD_ARG. With H reached, nothing in
the path, every chunk gone and every graph ended, the hand-over (PAGES: after the flush; FERRY: after the acknowledgement)
frees the entry and completes OK with COMMITTED. A window of MIGTO that ends with COMMITTED below MIG_H abandons the move: the
entry answers on, and the command completes with TIMEOUT.
Choices of this model on which it rests: log entries 28, 46 and 84. -/
def Obligations.MigrationOut : Prop :=
  ∀ (t : Stamp) (s : State),
    (∀ (u : State) (m : CellWords) (rest : List CqCell) (i : Nat), u = s.upTo t 0 → u.Heads 0x13 m rest →
      u.live (BitVec.ofNat 32 (fld (wordOf m 2) 0 32)) = some i → (u.entry i).dom = domField m →
      let e := u.entry i
      let w := wordOf m 3
      let dest := if fld w 0 32 = 0 then e.committed else fld w 0 32
      let may := e.state = .answer ∨ e.state = .parked ∨ (e.state = .ended ∧ e.outcome = 0)
      let badArg := dest < e.committed ∨ (e.state ≠ .answer ∧ dest ≠ e.committed) ∨ (bitAt w 32 = true ∧ fld w 33 6 = u.clk.blkNum)
      let refuse := fun st => Completes (exec (.migrateOut t) s) fun v => Answered u v 0x13 m rest st [] ∧ OnlyLanding u v
      (¬ may → refuse 0x03) ∧ (may → e.spec = true → refuse 0x0B) ∧ (may → e.spec = false → badArg → refuse 0x0A) ∧
      (may → e.spec = false → ¬ badArg → Completes (exec (.migrateOut t) s) fun v =>
        Opened u v 0x13 m rest ∧ v.lnd.nq = u.lnd.nq ∧ OthersStand u v i ∧
        v.entry i = { e with state := .migOut, migH := dest, mmode := bitAt w 32, peer := fld w 33 6
                             req := { e.req with mig := some ⟨u.tally, u.lnd.nextId, none, 0, false, u.man.migto⟩ } } ∧
        { v with lnd := u.lnd, man := u.man, cnt := u.cnt } = u ∧ MemSame u v 0 0)) ∧
    (∀ (u : State) (idx : BitVec 16) (k : MigOut) (o : OpenCmd), u = s.upToWhen t (kSub 2) (fun w => w.drained idx.toNat) →
      u.running = true →
      let i := idx.toNat
      let e := u.entry i
      e.state = .migOut → e.req.mig = some k → u.OpenIs k.cmd o →
      let done := fun (f : State) => Completes (exec (.handOver t idx) s) fun v =>
        Closed u v o 0x00 [BitVec.ofNat 64 e.committed] ∧
        Freed { e with outcome := (if e.endv then e.outcome else 7), endv := true } u v i ∧ OthersStand u v i ∧ (∀ a, v.byte a = f.byte a)
      (u.mem.en = true → e.committed = e.migH → e.pend = 0 → e.req.chunks = [] →
        (∀ p, p ∈ u.dsp.insts → p.2.handle ≠ u.handleOf i) →
        (∀ tr, tr ∈ u.dsp.startQ ∨ tr ∈ u.dsp.outside → tr.handle ≠ u.handleOf i) →
        (e.mmode = true → k.acked = true → done u) ∧
        (e.mmode = false → ((u.flush i u.tally).entry i).state = .migOut → done (u.flush i u.tally))) ∧
      (e.committed ≠ e.migH ∨ e.pend ≠ 0 ∨ e.req.chunks ≠ [] ∨ u.mem.en = false → exec (.handOver t idx) s = .next u)) ∧
    (∀ (u : State) (idx : BitVec 16) (k : MigOut) (o : OpenCmd), u = s.upTo t (kSub 2) → u.running = true →
      let i := idx.toNat
      let e := u.entry i
      e.state = .migOut → e.req.mig = some k → u.OpenIs k.cmd o →
      (e.committed < e.migH → k.stamp + 2400 * k.limit ≤ u.tally → Completes (exec (.migOutTimeout t idx) s) fun v =>
        Closed u v o 0x0D [] ∧ (v.entry i).migH = 0 ∧ (v.entry i).req.mig = none ∧ OthersStand u v i ∧ MemSame u v 0 0 ∧
        (v.entry i).state = (if e.req.ended = true ∧ e.req.stop = none then .ended else .answer)) ∧
      (e.migH ≤ e.committed ∨ u.tally < k.stamp + 2400 * k.limit → exec (.migOutTimeout t idx) s = .next u))

/-- R138, R150, R251, R293: a MIGRATE_IN of a live epoch that passes the checks of R139 allocates an entry in MIG_IN and stays open; one that
fails answers with the check's status. PAGES: a flushed state of the same domain, the same epoch and COMMITTED = H puts the
entry into ANSWER, or PARKED with PARK, with the copy's COMMITTED, ASEQ and automaton states, and completes OK with its handle; another one, or a control page that fails its check, frees
the entry with MISMATCH. 14 R325: after PEER_LOST of the source block, one with a valid mirror slot takes the slot's copy, its classifier
records without SEQ and LOGFULL set, and logs TAKEOVER. FERRY: so does a state that has arrived; one that has not within MIGTO frees the entry with TIMEOUT. A
command that comes to its page list while VY_MEM_CTL.EN is 0 is not accepted yet (13 R309; log entry 84).
Choices of this model on which it rests: log entries 16, 81 and 84. -/
def Obligations.MigrationIn : Prop :=
  ∀ (t : Stamp) (s : State),
    (∀ (u : State) (m : CellWords) (rest : List CqCell), u = s.upTo t 0 → u.Heads 0x14 m rest →
      let d := domField m
      let w2 := wordOf m 2
      let w3 := wordOf m 3
      let plist := fld (wordOf m 4) 0 40
      let npage := fld (wordOf m 4) 40 8
      let good := decide (fld w2 28 36 = 0 ∧ fld (wordOf m 4) 48 16 = 0 ∧ (m.drop 5).all (fun w => decide (w = 0)) = true)
      let slot := (u.domOf d).liveSlot (fld w2 0 16)
      (∀ st, u.admitEarly d slot.isSome = some st → Completes (exec (.migrateIn t) s) fun v =>
        Answered u v 0x14 m rest st [] ∧ OnlyLanding u v) ∧
      (u.mem.en = false → u.admitEarly d slot.isSome = none → exec (.migrateIn t) s = .next u) ∧
      (∀ st, u.mem.en = true → u.admitCheck d slot.isSome plist npage good = some st → Completes (exec (.migrateIn t) s) fun v =>
        Answered u v 0x14 m rest st [] ∧ OnlyLanding u v) ∧
      (∀ sel i, u.mem.en = true → u.admitCheck d slot.isSome plist npage good = none → slot = some sel → u.man.next = some i →
        (bitAt w2 20 = true → ∀ o, o ∈ u.fry.offers → ¬ ((u.group o.group).peer = fld w2 22 6 ∧ o.src.toNat = fld w3 32 32)) →
        Completes (exec (.migrateIn t) s) fun v => Opened u v 0x14 m rest ∧ v.lnd.nq = u.lnd.nq ∧ OthersStand u v i ∧
          (∃ b, (v.entry i).req.build = some b ∧ b.cmd = u.lnd.nextId ∧ b.stamp = u.tally ∧ b.limit = u.man.migto ∧
            b.h = fld w3 0 32 ∧ b.src.toNat = fld w3 32 32 ∧ b.srcBlk = fld w2 22 6 ∧ b.park = bitAt w2 21 ∧ b.arrived = false ∧
            (b.adopted = true ↔ bitAt w2 20 = false ∧ ∃ g, g ∈ u.fry.grp ∧ g.lost = true ∧ g.peer = b.srcBlk) ∧
            (b.mirror = true ↔ b.adopted = true ∧ (u.mirrorSlot b.src d (fld w2 0 16)).isSome = true) ∧
            b.refused = false ∧ v.entry i = { Entry.init (u.entry i).gen with
              state := .migIn, dom := d, esel := sel, epoch := fld w2 0 16, prio := fld w2 16 4, plist := plist, npage := npage
              mmode := bitAt w2 20, peer := fld w2 22 6, req := { (Entry.init 1).req with build := some b } }))) ∧
    (∀ (u : State) (idx : BitVec 16) (b : Build) (o : OpenCmd), u = s.upTo t (kSub 2) → u.running = true →
      let i := idx.toNat
      let e := u.entry i
      e.state = .migIn → e.req.build = some b → u.OpenIs b.cmd o →
      (∀ r, u.mem.en = true → e.mmode = false → b.refused = false → u.ctlPage i = some r → u.ctlOk i r = false →
        Completes (exec (.migrateInDone t idx) s) fun v => Closed u v o 0x0C [] ∧ Freed e u v i ∧ OthersStand u v i ∧ MemSame u v 0 0) ∧
      (∀ r a, u.mem.en = true → e.mmode = false → b.mirror = true → b.adopted = true → b.refused = false → u.ctlPage i = some r →
        u.ctlOk i r = true → u.flushOk i r = true → u.mirrorSlot b.src e.dom e.epoch = some a →
        let c := u.readCopy (a + 0x100)
        (c.committed = b.h → Completes (exec (.migrateInDone t idx) s) fun v =>
          Closed u v o 0x00 [(u.handleOf i).setWidth 64] ∧ OthersStand u v i ∧ v.four i = c.states ∧
          (v.entry i).state = (if b.park then .parked else .answer) ∧ (v.entry i).committed = b.h ∧ (v.entry i).aseq = c.aseq ∧
          (v.entry i).req.kv = c.kv.map (fun k => { k with seq := none }) ∧ (v.entry i).req.logfull = true ∧
          (v.entry i).req.build = none ∧
          (u.log.full = false → u.log.failed = false → u.wch.staging.length < 255 → ∃ x, x ∈ v.wch.staging ∧ x.typ = 0x0A ∧
            x.d0 = (u.handleOf i).setWidth 64 ∧ x.d1 = BitVec.ofNat 64 (b.srcBlk + b.src.toNat * 2 ^ 32) ∧ x.d2 = BitVec.ofNat 64 b.h)) ∧
        (c.committed ≠ b.h → Completes (exec (.migrateInDone t idx) s) fun v =>
          Closed u v o 0x0C [] ∧ Freed e u v i ∧ OthersStand u v i ∧ MemSame u v 0 0)) ∧
      (∀ r, u.mem.en = true → e.mmode = true → b.mirror = false → b.arrived = true → b.refused = false → u.ctlPage i = some r →
        u.ctlOk i r = true → u.flushOk i r = true →
        let c := u.readCopy (copyAddr r.page false)
        c.committed = b.h → Completes (exec (.migrateInDone t idx) s) fun v =>
          Closed u v o 0x00 [(u.handleOf i).setWidth 64] ∧ OthersStand u v i ∧ v.four i = c.states ∧
          (v.entry i).state = (if b.park then .parked else .answer) ∧ (v.entry i).committed = b.h ∧ (v.entry i).aseq = c.aseq ∧
          (v.entry i).req.build = none ∧ (v.entry i).gen = e.gen) ∧
      (∀ r, u.mem.en = true → e.mmode = false → b.mirror = false → b.refused = false → u.ctlPage i = some r → u.ctlOk i r = true →
        let hd := u.flushHdr r.page
        let c := u.readCopy (copyAddr r.page hd.cur)
        (hd.dom = e.dom → hd.epoch = e.epoch → c.committed = b.h → Completes (exec (.migrateInDone t idx) s) fun v =>
          Closed u v o 0x00 [(u.handleOf i).setWidth 64] ∧ OthersStand u v i ∧ MemSame u v 0 0 ∧ v.four i = c.states ∧
          (v.entry i).state = (if b.park then .parked else .answer) ∧ (v.entry i).committed = b.h ∧ (v.entry i).aseq = c.aseq ∧
          (v.entry i).req.build = none ∧ (v.entry i).gen = e.gen) ∧
        (hd.dom ≠ e.dom ∨ hd.epoch ≠ e.epoch ∨ c.committed ≠ b.h → Completes (exec (.migrateInDone t idx) s) fun v =>
          Closed u v o 0x0C [] ∧ Freed e u v i ∧ OthersStand u v i ∧ MemSame u v 0 0)) ∧
      (b.refused = true → Completes (exec (.migrateInDone t idx) s) fun v =>
        Closed u v o 0x0C [] ∧ Freed e u v i ∧ OthersStand u v i ∧ MemSame u v 0 0) ∧
      (e.mmode = true → b.arrived = false → b.stamp + 2400 * b.limit ≤ u.tally → Completes (exec (.migrateInTimeout t idx) s) fun v =>
        Closed u v o 0x0D [] ∧ Freed e u v i ∧ OthersStand u v i ∧ MemSame u v 0 0) ∧
      (e.mmode = false ∨ b.arrived = true ∨ u.tally < b.stamp + 2400 * b.limit → exec (.migrateInTimeout t idx) s = .next u))

/-- R138, R151, R152, R251: a REUSE of a PARKED entry of the command's domain allocates an entry in REUSE with the source's COMMITTED and, in
the same epoch, its automaton states, or at the other epoch's start states for a re-screen; the source and every other entry stand, and
while the copy meets no failed check the command stays open. A source that is not PARKED is STALE. When the copy and any re-screen have ended, the entry is PARKED and the command OK with the action, or, with a
STOP, STOPPED and REFUSED. A replay transfer takes the next position of the token log on a free lane, its predecessor four
counts back, advances the committed automaton states, drives no descriptor, and joins the path.
Choices of this model on which it rests: log entries 21 and 84. -/
def Obligations.ReuseAndReplay : Prop :=
  ∀ (t : Stamp) (s : State),
    (∀ (u : State) (m : CellWords) (rest : List CqCell) (src : Nat), u = s.upTo t 0 → u.Heads 0x15 m rest →
      u.live (BitVec.ofNat 32 (fld (wordOf m 2) 0 32)) = some src → (u.entry src).dom = domField m →
      let d := domField m
      let w3 := wordOf m 3
      let x := u.domOf d
      let slot := if bitAt w3 16 then x.active else x.liveSlot (fld w3 0 16)
      let plist := fld (wordOf m 4) 0 40
      let npage := fld (wordOf m 4) 40 8
      let good := decide (fld (wordOf m 2) 32 32 = 0 ∧ fld w3 21 43 = 0 ∧ fld (wordOf m 4) 48 16 = 0 ∧ (m.drop 5).all (fun w => decide (w = 0)) = true)
      ((u.entry src).state ≠ .parked → Completes (exec (.reuse t) s) fun v => Answered u v 0x15 m rest 0x01 [] ∧ OnlyLanding u v) ∧
      ((u.entry src).state = .parked →
        (∀ st, u.admitEarly d slot.isSome = some st → Completes (exec (.reuse t) s) fun v =>
          Answered u v 0x15 m rest st [] ∧ OnlyLanding u v) ∧
        (u.mem.en = false → u.admitEarly d slot.isSome = none → exec (.reuse t) s = .next u) ∧
        (∀ st, u.mem.en = true → u.admitCheck d slot.isSome plist npage good = some st → Completes (exec (.reuse t) s) fun v =>
          Answered u v 0x15 m rest st [] ∧ OnlyLanding u v) ∧
        (∀ sel ep i, u.mem.en = true → u.admitCheck d slot.isSome plist npage good = none → slot = some sel → x.epoch sel = some ep →
          u.man.next = some i → i ≠ src → Completes (exec (.reuse t) s) fun v => v.lnd.cq = rest ∧ OthersStand u v i ∧
            (v.entry i).dom = d ∧ (v.entry i).esel = sel ∧ (v.entry i).epoch = ep.num ∧
            (v.entry i).committed = (u.entry src).committed ∧ (v.entry i).aseq = (u.entry src).aseq ∧
            (v.entry i).plist = plist ∧ (v.entry i).npage = npage ∧
            v.four i = (if (u.entry src).epoch = ep.num then u.four src else ep.start) ∧ (∀ k, k ≠ i → v.four k = u.four k) ∧
            ((v.entry i).state = .reuse → Opened u v 0x15 m rest ∧
              ∃ b, (v.entry i).req.build = some b ∧ b.cmd = u.lnd.nextId ∧ b.screen = decide ((u.entry src).epoch ≠ ep.num))))) ∧
    (∀ (u : State) (idx : BitVec 16),
      u = s.upToWhen t (kSub 2) (fun w => match (w.entry idx.toNat).req.build with
        | some b => w.screenDone idx.toNat b
        | none => true) → u.running = true → u.mem.en = true →
      let i := idx.toNat
      let e := u.entry i
      (∀ b o, e.state = .reuse → e.req.build = some b → u.OpenIs b.cmd o →
        (b.screen = false → b.refused = false → b.act ≠ .stop → Completes (exec (.reuseDone t idx) s) fun v =>
          Closed u v o 0x00 [(u.handleOf i).setWidth 64, BitVec.ofNat 64 (b.act.code + 8 * nb b.esc)] ∧ (v.entry i).state = .parked ∧
          OthersStand u v i ∧ (v.entry i).req.build = none) ∧
        (b.refused = true → e.endv = false → Completes (exec (.reuseDone t idx) s) fun v =>
          Closed u v o 0x11 [(u.handleOf i).setWidth 64, BitVec.ofNat 64 (5 + 8 * nb b.esc)] ∧ (v.entry i).state = .stopped ∧ (v.entry i).outcome = 1 ∧
          (v.entry i).endv = true ∧ OthersStand u v i ∧ MemSame u v 0 0) ∧
        (b.screen = true → b.refused = false → b.nextPos < e.committed → exec (.reuseDone t idx) s = .next u))) ∧
    (∀ (u : State) (idx : BitVec 16), u = s.upTo t (kSub 6) → u.running = true → u.mem.en = true → u.wch.repairs = [] →
      let i := idx.toNat
      let e := u.entry i
      (∀ (lane : Fin 8) (ep : Epoch) (pos x : Nat) (last : Option Stamp), u.tokEn = true → u.laneFree lane u.tally = true →
        u.epochOf e = some ep → u.logOk i pos = true → u.tlogRead i pos = some x → pos < e.committed → spaced last u.tally = true →
        ((e.state = .reuse ∧ ∃ b, e.req.build = some b ∧ b.screen = true ∧ b.refused = false ∧ b.nextPos = pos ∧ b.lastRep = last) ∨
          (e.state = .recover ∧ ∃ r r0, e.req.recov = some r ∧ r.restored = some r0 ∧ r0 ≤ u.tally ∧ r.nextPos = pos ∧
            r.lastRep = last)) →
        Completes (exec (.replayTransfer t lane idx) s) fun v => OthersStand u v i ∧ MemSame u v 0 0 ∧ v.pins = u.pins ∧
          v.four i = u.advance ep.slotEn (u.four i) x ∧ (∀ k, k ≠ i → v.four k = u.four k) ∧
          (∀ b, e.state = .reuse → e.req.build = some b → ∃ b', (v.entry i).req.build = some b' ∧ b'.nextPos = pos + 1 ∧
            b'.lastRep = some u.tally) ∧
          (∀ r, e.state = .recover → e.req.recov = some r → ∃ r', (v.entry i).req.recov = some r' ∧ r'.nextPos = pos + 1 ∧
            r'.lastRep = some u.tally) ∧
          ∃ f, v.tok.path = u.tok.path ++ [f] ∧ f.replay = true ∧ f.desc = none ∧ f.lane = lane.val ∧ f.stamp = u.tally ∧
            f.pos = pos ∧ f.path.map PathTok.tok = [x]))

/-! ### The Ramp and the prompt -/

/-- R43, R44, R54, R55, R159: the open chunk closes at its close time f + 240·CLOSE + 10, and its chunk graph is triggered, or without one
it is judged PASS at once. A window that ends before its chunk is judged misses: under STOP the request stops with CAUSE MISS_STOP from that chunk on,
its earlier chunks standing (one that is stopped already loses the chunk and the later ones, and keeps its cause), and under FLAG the chunk
is judged at the window's end with MISS. Before its time, neither has an effect.
Choices of this model on which it rests: log entry 76. -/
def Obligations.ChunkTimes : Prop :=
  ∀ (t : Stamp) (s : State) (idx : BitVec 16),
    let i := idx.toNat
    (∀ (u : State) (c : Chunk), u = s.upTo t (kRamp 4) → u.running = true → (u.entry i).req.openChunk = some c →
      let at' := c.f + 240 * c.set.close + 10
      (u.tally < at' → exec (.closeTime t idx) s = .next u) ∧
      (at' ≤ u.tally → u.chunk i c.num = some c → c.set.passthru = false → u.dsp.startQ.length < 65535 →
        (∀ g, ((u.epochOf (u.entry i)).bind fun x => x.cgraph) = some g → Completes (exec (.closeTime t idx) s) fun v =>
          OthersStand u v i ∧ MemSame u v 0 0 ∧ v.chunk i c.num = some { c with closed := some at' } ∧
          v.dsp.startQ = u.dsp.startQ ++ [⟨u.handleOf i, g, true, c.num, none, 0, false, c.all.length, c.isEoa,
            BitVec.ofNat 64 (c.f + 2400 * c.set.deadline), at'⟩] ∧
          ∃ vs x, v.txt.views = vs ++ [x] ∧ (vs.map fun y => { y with waited := false }) = (u.txt.views.map fun y => { y with waited := false }) ∧
            x.handle = u.handleOf i ∧ x.k = c.num ∧ x.built = false) ∧
        (((u.epochOf (u.entry i)).bind fun x => x.cgraph) = none → u.rampEn = true → Completes (exec (.closeTime t idx) s) fun v =>
          OthersStand u v i ∧ MemSame u v 0 0 ∧ v.dsp = u.dsp ∧
          ∃ d, v.chunk i c.num = some d ∧ d.closed = some at' ∧ d.judged = some at' ∧ d.toks = c.toks))) ∧
    (∀ (u : State) (a b : List Chunk) (c : Chunk), u = s.upTo t (kRamp 1) → u.running = true → u.rampEn = true →
      (u.entry i).req.chunks = a ++ c :: b → (u.entry i).req.chunks.Pairwise (fun x y => x.num < y.num) →
      let w := c.f + 2400 * c.set.deadline
      let quiet := fun (x : Chunk) => x.judged ≠ none ∨ x.set.passthru = true ∨ u.tally < x.f + 2400 * x.set.deadline
      c.judged = none → c.set.passthru = false → w ≤ u.tally → (∀ x, x ∈ a → quiet x) →
      (c.set.miss = false → (u.entry i).req.stop = none → (u.entry i).req.ended = false →
        ((u.entry i).state = .prompt ∨ (u.entry i).state = .answer ∨ (u.entry i).state = .migOut) →
        Completes (exec (.deadlineExpiry t idx) s) fun v => OthersStand u v i ∧ MemSame u v 0 0 ∧ (v.entry i).state = .stopped ∧
          (v.entry i).req.chunks = a ∧ (v.entry i).req.stop = some ⟨2, w⟩ ∧
          (a = [] → (∀ d, d ∈ u.ramp.due → d.h ≠ u.handleOf i) → (v.entry i).req.ended = true ∧ (v.entry i).endv = true ∧
            ((u.entry i).endv = false → (v.entry i).outcome = 2) ∧
            ∃ e, e ∈ v.ramp.outq ∧ fld e.word 0 32 = (u.handleOf i).toNat ∧ fld e.word 50 2 = 3 ∧ fld e.word 59 3 = 2 ∧
              e.word.getLsbD 57 = true ∧ e.since = w + 2)) ∧
      (∀ st, c.set.miss = false → (u.entry i).req.stop = some st → (u.entry i).req.ended = false →
        Completes (exec (.deadlineExpiry t idx) s) fun v => OthersStand u v i ∧ MemSame u v 0 0 ∧ (v.entry i).req.chunks = a ∧
          (v.entry i).req.stop = some st ∧ (a = [] → (∀ d, d ∈ u.ramp.due → d.h ≠ u.handleOf i) → (v.entry i).req.ended = true)) ∧
      (c.set.miss = true → (∀ x, x ∈ b → quiet x) → u.roomFor 1 → (u.entry i).req.build = none → Completes (exec (.deadlineExpiry t idx) s) fun v =>
        OthersStand u v i ∧ MemSame u v 0 0 ∧ (v.entry i).state = (u.entry i).state ∧
        noticeCell u.clk.blkNum 0x85 (u.entry i).dom (u.handleOf i) w [BitVec.ofNat 64 (c.num + 2 * 2 ^ 32)] ∈ v.lnd.nq ∧
        ∃ d, (v.entry i).req.chunks = a ++ d :: b ∧ d.judged = some w ∧ d.missed = true ∧ d.floor = .flag ∧ d.toks = c.toks ∧
          d.num = c.num)) ∧
    (∀ (u : State), u = s.upTo t (kRamp 1) → u.running = true →
      (∀ x, x ∈ (u.entry i).req.chunks → x.judged ≠ none ∨ x.set.passthru = true ∨ u.tally < x.f + 2400 * x.set.deadline) →
      exec (.deadlineExpiry t idx) s = .next u)

/-- R49, R52, R53, R373: the first held chunk, once judged, is released at the later of its judgement and the last release: it leaves the
Hold, RELEASED grows by its tokens, and its words join the Token Out queue in held order: the tokens themselves under PASS and
FLAG, REDACT_TOK under REDACT, one copy of the replacement under REPLACE; the last word alone carries CHUNK_END, and LAST if the
chunk holds STOP_TOK, with which the answer ends. R50: the last release of a request that is stopped is followed by the end word with the
stop's CAUSE, and END is raised.
Choices of this model on which it rests: log entries 29, 30 and 92. -/
def Obligations.ReleaseEmitsWords : Prop :=
  ∀ (t : Stamp) (s u : State) (idx : BitVec 16) (c : Chunk) (cs : List Chunk) (j : Stamp) (ep : Epoch), u = s.upTo t (kRamp 5) →
    u.running = true →
    let i := idx.toNat
    let e := u.entry i
    let r := max j e.lastrel
    e.req.chunks = c :: cs → (∀ x, x ∈ cs → x.num ≠ c.num) → c.judged = some j → u.epochOf e = some ep →
      (u.tally < r → exec (.release t idx) s = .next u) ∧
      (∀ st, r ≤ u.tally → e.req.stop = some st → e.req.ended = false → cs = [] → (∀ d, d ∈ u.ramp.due → d.h ≠ u.handleOf i) →
        e.state = .stopped → st.cause < 8 → Completes (exec (.release t idx) s) fun v => (v.entry i).req.chunks = [] ∧
          (v.entry i).req.ended = true ∧ (v.entry i).endv = true ∧ (e.endv = false → (v.entry i).outcome = st.cause) ∧ OthersStand u v i ∧
          ∃ w, w ∈ v.ramp.outq ∧ fld w.word 0 32 = (u.handleOf i).toNat ∧ fld w.word 50 2 = 3 ∧ w.word.getLsbD 57 = true ∧
            fld w.word 59 3 = st.cause ∧ w.since = r + 2) ∧
      (r ≤ u.tally → (∀ w, w ∈ u.ramp.outq → w.lane = i % 8 → w.key.1 < r ∨ (w.key.1 = r ∧ w.key.2 ≤ i)) →
        (∀ h, h ∈ c.toks → h.act ≠ .stop) → e.req.stop = none →
        Completes (exec (.release t idx) s) fun v => OthersStand u v i ∧ MemSame u v 0 0 ∧ (v.entry i).req.chunks = cs ∧
          (v.entry i).held = e.held - c.toks.length ∧ (v.entry i).released = (e.released + c.toks.length) % 2 ^ 32 ∧
          (v.entry i).lastrel = r ∧
          ∃ ws fin, v.ramp.outq = u.ramp.outq ++ ws ++ fin ∧
            (c.isEoa = false ∨ ws ≠ [] → fin = []) ∧ (c.isEoa = true → ws = [] → fin.length = 1) ∧
            (∀ k w, ws[k]? = some w → w.lane = i % 8 ∧ w.since = r + 2 ∧ fld w.word 0 32 = (u.handleOf i).toNat ∧
              fld w.word 52 3 = c.merged.code ∧ w.word.getLsbD 55 = c.mergedEsc ∧ w.word.getLsbD 56 = c.missed ∧
              (w.word.getLsbD 58 = true ↔ k + 1 = ws.length) ∧
              (w.word.getLsbD 57 = true ↔ k + 1 = ws.length ∧ c.isEoa = true) ∧ fld w.word 59 3 = 0 ∧
              fld w.word 78 12 = r % 2 ^ 12) ∧
            (let seen := ws.map fun w => (fld w.word 32 18, fld w.word 50 2, fld w.word 62 16)
             ((∀ h, h ∈ c.toks → h.act = .pass ∨ h.act = .flag) →
               seen = c.toks.map fun h => (h.tok % 2 ^ 18, 0, h.pos % 2 ^ 16)) ∧
             ((∀ h, h ∈ c.toks → h.act = .redact) →
               seen = c.toks.map fun h => (ep.redactTok % 2 ^ 18, 1, h.pos % 2 ^ 16)) ∧
             (∀ h hs, c.toks = h :: hs → (∀ x, x ∈ c.toks → x.act = .replace) →
               seen = if e.req.lastRepl then [] else ep.repl.map fun w => (w % 2 ^ 18, 2, h.pos % 2 ^ 16))) ∧
            (c.isEoa = true → e.state = .answer → (v.entry i).state = .ended ∧ (v.entry i).endv = true ∧
              (e.endv = false → (v.entry i).outcome = 0)) ∧
            (c.isEoa = false → (v.entry i).state = e.state))

/-- R14, R15, R59, R83, R84, R138, R141: a Prompt In transfer of a live entry that R83 accepts opens the prompt if it is the first (PROMPT, PSTAMP and PDL
latched), and appends the repaired bytes to the prompt view while they fit; ASCII bytes stand as they came. LAST sets PLAST. One that R83
discards changes no entry, is counted and raises PROMPT_DROP with the first REASON. The channel takes one word an edge of CK_M (12 R265).
With no prompt graph the verdict PASS is due at the stamp of LAST (08 R159), and takes its place among the Ramp's events (R48). A prompt window
that ends unanswered puts the
miss action on Verdict Out with MISS: STOP ends the request, FLAG opens the answer; of a request that the Ramp has stopped already it
only goes to Verdict Out (R59).
Choices of this model on which it rests: log entry 27. -/
def Obligations.PromptScreened : Prop :=
  ∀ (t : Stamp) (s : State),
    (∀ (u : State) (w : BitVec 576) (h : Handle), u = s.upTo t 0 → u.alive = true → u.pinEn = true → h.toNat = fld w 0 32 →
      (u.pinTaken = true → exec (.promptIn t w) s = .next u) ∧
      (u.pinTaken = false →
      let n := fld w 33 7
      let form := w.getLsbD 32
      let last := w.getLsbD 40
      (∀ i ep, u.live h = some i → u.epochOf (u.entry i) = some ep →
        let e := u.entry i
        let d := u.domOf e.dom
        let first := decide (e.state = .admitted)
        let forms := if first then (d.formB, d.formT) else e.req.pforms
        (e.state = .admitted ∨ (e.state = .prompt ∧ e.plast = false)) → 1 ≤ n → n ≤ (if form then 28 else 64) →
        (if form then forms.2 else forms.1) = true → (e.req.pform = none ∨ e.req.pform = some form) → e.req.oversize = false →
        let base := (u.vslot (ep.pvocab.getD 0)).base
        let raw := if form then ((List.range n).map fun k => fld w (64 + 18 * k) 18).flatMap fun x => (u.tokenBytes base x).getD []
          else (List.range n).map fun k => BitVec.ofNat 8 (fld w (64 + 8 * k) 8)
        let inp := (e.req.ptext.utf8 ++ raw).map fun b => (b, ())
        let r : Repaired Unit := repair last (inp.length + 1) inp
        let out := r.out.map fun p => p.1
        let area := areaPages (u.runs e.plist e.npage) 1 0
        let q := u.wrArea e.dom area e.req.pview out
        (form = false → e.req.ptext.utf8 = [] → (∀ b, b ∈ raw → b.toNat < 128) → out = raw) ∧
        (e.req.pview + out.length ≤ min (65536 * if first then d.pmax else e.req.pmax) (areaSize area) → q.2 = true →
          (form = true → ∀ k, k < n → u.tokenReads e.dom base (fld w (64 + 18 * k) 18) = true) →
          Completes (exec (.promptIn t w) s) fun v => OthersStand u v i ∧ (u.mem.en = true → ∀ a, v.byte a = q.1.byte a) ∧
            v.ramp.due = u.ramp.due ++ (if last = true ∧ ep.pgraph = none then [⟨u.tally, h, .prompt⟩] else []) ∧
            (v.entry i).state = .prompt ∧ (v.entry i).plast = (last || e.plast) ∧ (v.entry i).req.pview = e.req.pview + out.length ∧
            (v.entry i).req.ptext.utf8 = r.carry ∧ (v.entry i).gen = e.gen ∧ (v.entry i).committed = e.committed ∧
            (first = true → (v.entry i).pstamp = u.tally ∧ (v.entry i).pdl = (if e.pdl = 0 then d.ramp.deadline else e.pdl) ∧
              (v.entry i).req.pform = some form) ∧
            (first = false → (v.entry i).pstamp = e.pstamp ∧ (v.entry i).pdl = e.pdl))) ∧
      (∀ reason, u.promptReason w = some reason → u.roomFor 1 → u.building h = none →
        Completes (exec (.promptIn t w) s) fun v => v.man = u.man ∧
        MemSame u v 0 0 ∧ v.txt = { u.txt with pdrop := (u.txt.pdrop + 1) % 2 ^ 32, lastPin := some u.tally } ∧ v.dsp = u.dsp ∧
        noticeCell u.clk.blkNum 0x89 (match u.live h with
          | some i => (u.entry i).dom
          | none => 0) h u.tally [BitVec.ofNat 64 reason] ∈ v.lnd.nq) ∧
      (u.live h = none → u.promptReason w = some 0) ∧
      (∀ i, u.live h = some i →
        ((u.entry i).state = .prompt → (u.entry i).plast = true → u.promptReason w = some 3) ∧
        ((u.entry i).state ≠ .prompt → (u.entry i).state ≠ .admitted → u.promptReason w = some 4) ∧
        ((u.entry i).state = .admitted → n = 0 ∨ (if form then 28 else 64) < n → u.promptReason w = some 5)))) ∧
    (∀ (d : Stamp) (h : Handle) (i : Nat) (key : Nat), s.running = true → s.tok.path = [] → s.lnd.wait = [] → s.ramp.due = [⟨d, h, .prompt⟩] →
      s.tally ≤ d → d < t ∨ (d = t ∧ kRamp 4 < key) → (s.setTally d).rampEn = true → s.live h = some i → (s.entry i).state = .prompt →
      (s.entry i).req.pwin = true → d < (s.entry i).pstamp + 2400 * (s.entry i).pdl → (s.entry i).req.oversize = false →
      (s.entry i).req.stop = none → (s.entry i).req.ended = false →
      let v := s.upTo t key
      v.ramp.due = [] ∧ (v.entry i).state = .answer ∧ (v.entry i).req.pwin = false ∧ OthersStand s v i ∧
        (d, BitVec.ofNat 128 (h.toNat + d * 2 ^ 64)) ∈ v.ramp.voq) ∧
    (∀ (u : State) (idx : BitVec 16), u = s.upTo t (kRamp 1) → u.running = true → u.rampEn = true →
      let i := idx.toNat
      let e := u.entry i
      let z := e.pstamp + 2400 * e.pdl
      let word := fun (a : Act) => BitVec.ofNat 128 ((u.handleOf i).toNat + a.code * 2 ^ 32 + (if e.req.pset.missEsc then 2 ^ 35 else 0) +
        2 ^ 36 + z * 2 ^ 64)
      0 < e.pdl → e.req.oversize = false →
      (u.tally < z ∨ e.req.pwin = false → exec (.promptDeadlineExpiry t idx) s = .next u) ∧
      (z ≤ u.tally → e.req.pwin = true → e.req.stop ≠ none → e.req.build = none → Completes (exec (.promptDeadlineExpiry t idx) s) fun v => OthersStand u v i ∧
        v.entry i = { e with req := { e.req with pwin := false } } ∧ MemSame u v 0 0 ∧
        (z, word (if e.req.pset.miss then .flag else .stop)) ∈ v.ramp.voq) ∧
      (z ≤ u.tally → e.req.pwin = true → e.req.stop = none → e.state = .prompt → e.req.pset.miss = false → Completes (exec (.promptDeadlineExpiry t idx) s) fun v => OthersStand u v i ∧
        MemSame u v 0 0 ∧ (v.entry i).state = .stopped ∧ (v.entry i).endv = true ∧ (e.endv = false → (v.entry i).outcome = 6) ∧
        (z, word .stop) ∈ v.ramp.voq) ∧
      (z ≤ u.tally → e.req.pwin = true → e.req.stop = none → e.state = .prompt → e.req.ended = false → e.req.pset.miss = true →
        Completes (exec (.promptDeadlineExpiry t idx) s) fun v => OthersStand u v i ∧
        MemSame u v 0 0 ∧ (v.entry i).state = .answer ∧ (z, word .flag) ∈ v.ramp.voq ∧ v.ramp.outq = u.ramp.outq))

/-! ### The Dispatcher -/

/-- R160, R162, R166: the first trigger of the start queue starts its instance in a free record, with nothing issued, done or skipped, and the queue
moves up; every task without dependences is ready at the start, a SUB task as a subgraph's trigger. Four counts after its cause a
resolution makes ready exactly the tasks whose dependences have all been resolved and that were neither issued, skipped nor ready. An
instance with every task resolved ends then: a top instance's record is free; a subgraph's SUB task is done, with the verdict as its
result, and its record stays with its parent's. A graph that its request's domain may not read trips the memory port instead (13 R287).
Choices of this model on which it rests: log entries 13 and 48. -/
def Obligations.GraphsStartAndResolve : Prop :=
  ∀ (t : Stamp) (s : State),
    let stands := fun (u v : State) => v.man = u.man ∧ v.pil = u.pil ∧ v.doms = u.doms ∧ MemSame u v 0 0
    (∀ (u : State), u = s.upToWhen t (kSub 4) (fun w => !w.dsp.startQ.isEmpty) → u.running = true →
     (∀ tr r i ep, u.dsp.startQ = tr :: r → u.dspEn = true → u.mem.en = true → u.dsp.insts.length < 2048 → u.live tr.handle = some i →
      u.epochOf (u.entry i) = some ep → u.graphReads (u.entry i).dom ep.gdir tr.graph = false →
      exec (.graphStart t) s = .next (u.viol.memTrip 2 i u.tally)) ∧
     (∀ tr r i ep, u.dsp.startQ = tr :: r → u.dspEn = true → u.mem.en = true → u.dsp.insts.length < 2048 → u.live tr.handle = some i →
      u.epochOf (u.entry i) = some ep → u.graphReads (u.entry i).dom ep.gdir tr.graph = true → Completes (exec (.graphStart t) s) fun v => stands u v ∧
        let hd := u.graphHdr (u.graphAddr ep.gdir tr.graph)
        let task := fun (k : Nat) => u.taskAt (hd.tasks + 32 * k)
        ∃ n g, n < 2048 ∧ u.inst n = none ∧ v.inst n = some g ∧ g.handle = tr.handle ∧ g.graph = tr.graph ∧ g.answer = tr.answer ∧
          g.k = tr.k ∧ g.parent = tr.parent ∧ g.depth = tr.depth ∧ g.ntask = hd.ntask ∧ g.vtask = hd.vtask ∧ g.done = 0 ∧ g.skip = 0 ∧
          g.verdict = none ∧ (∀ k, k ≠ n → v.inst k = u.inst k) ∧
          (∀ k, k < hd.ntask → (task k).deps = 0 → (task k).sub = false → ⟨n, k, u.tally, none⟩ ∈ v.dsp.ready) ∧
          (∀ k, k < hd.ntask → (task k).deps = 0 → (task k).sub = true → ∃ x, x ∈ v.dsp.startQ ++ v.dsp.outside ∧
            x.parent = some (n, k) ∧ x.graph = (task k).subg ∧ x.depth = tr.depth + 1 ∧ x.stamp = u.tally) ∧
          (∀ x, x ∈ v.dsp.ready → x ∈ u.dsp.ready ∨ (x.inst = n ∧ x.task < hd.ntask ∧ (task x.task).deps = 0)) ∧
          ((∀ k, k < hd.ntask → (task k).sub = false) → u.dsp.outside = [] → v.dsp.startQ = r)) ∧
     (u.dsp.startQ = [] ∨ u.dspEn = false ∨ u.mem.en = false ∨ 2048 ≤ u.dsp.insts.length → exec (.graphStart t) s = .next u)) ∧
    (∀ (u : State) (inst : BitVec 11) (r : Resolve) (g : GInst), u = s.upTo t (kSub 4) → u.running = true →
      let n := inst.toNat
      (u.dsp.resolve.find? fun r => decide (r.inst = n) && decide (r.at' + 4 ≤ u.tally)) = some r → u.inst n = some g →
      let c := r.at' + 4
      let met := g.met ||| r.set
      let due := fun (k : Nat) (x : Task) => k < g.ntask ∧ g.tasks[k]? = some x ∧
        (∀ b, b < 64 → x.deps.getLsbD b = true → met.getLsbD b = true) ∧
        bitAt (g.issued ||| g.skip) k = false ∧ Tab.get g.ready k = none
      let all := fun (g : GInst) (m : BitVec 64) => ∀ b, b < g.ntask → m.getLsbD b = true
      g.ntask ≤ 64 →
      (¬ all g met ∨ g.ended = true → Completes (exec (.dependenceResolve t inst) s) fun v => stands u v ∧
        (∀ k, k ≠ n → v.inst k = u.inst k) ∧
        (∃ g', v.inst n = some g' ∧ g'.met = met ∧ g'.done = g.done ∧ g'.skip = g.skip ∧ g'.results = g.results) ∧
        (∀ k x, due k x → x.sub = false → ⟨n, k, c, none⟩ ∈ v.dsp.ready) ∧
        (∀ k x, due k x → x.sub = true → ∃ tr, tr ∈ v.dsp.startQ ++ v.dsp.outside ∧ tr.parent = some (n, k) ∧ tr.graph = x.subg) ∧
        (∀ y, y ∈ v.dsp.ready → y ∈ u.dsp.ready ∨ (y.inst = n ∧ y.stamp = c ∧ ∃ x, due y.task x))) ∧
      (all g met → g.ended = false → g.parent = none → Completes (exec (.dependenceResolve t inst) s) fun v =>
        v.inst n = none ∧ (g.work = [] → stands u v)) ∧
      (∀ p q, all g met → g.ended = false → g.parent = some p → p.1 ≠ n → u.inst p.1 = some q → q.ntask ≤ 64 →
        ¬ all q (q.met ||| (1#64 <<< p.2)) → Completes (exec (.dependenceResolve t inst) s) fun v => stands u v ∧
          (∃ g', v.inst n = some g' ∧ g'.ended = true) ∧
          ∃ q', v.inst p.1 = some q' ∧ q'.done = q.done ||| (1#64 <<< p.2) ∧ Tab.get q'.results p.2 = some (g.verdict.getD 0)))

/-- R167, R169, R172, R187: a job is placed only where a core is in service and has a free slot, none with fewer jobs; the job is eligible and under its
domain's JOBMAX, owners before fillers, then the higher PRIO, then the earlier ready stamp. A new job starts at its program's
ENTRY with no window, its predicates false and its registers zero but g1–g4; a pre-empted one resumes as it was saved, with its
extent. Nothing else in a slot changes. No job is placed on a core that leaves or that an overrun holds (R174, 14 R317). A save frame whose
area, or a program whose words, fail the check of 13 R287 trips the memory port instead.
Choices of this model on which it rests: log entries 13 and 90. -/
def Obligations.JobsPlaced : Prop :=
  ∀ (t : Stamp) (s u : State) (r : Ready) (k : Nat), u = s.upTo t (kSub 4) → u.running = true → u.dspEn = true → u.mem.en = true →
    u.nextJob u.tally = some r → u.placeSlot u.tally = some k →
      let may := fun (x : Ready) => ∃ d e, u.readyJob x = some (d, e) ∧ u.elig 0 d e u.tally ≠ .no ∧ u.underJobmax d = true
      let own := fun (x : Ready) => ∃ d e, u.readyJob x = some (d, e) ∧ u.elig 0 d e u.tally = .owner
      let prio := fun (x : Ready) => min 15 (u.entry (((u.inst x.inst).map fun g => hIdx g.handle).getD 0)).prio
      (r ∈ u.dsp.ready ∧ may r) ∧
      (∀ x, x ∈ u.dsp.ready → may x → (own x → own r) ∧ ((own x ↔ own r) → prio x ≤ prio r) ∧
        ((own x ↔ own r) → prio x = prio r → r.stamp ≤ x.stamp)) ∧
      (k < 64 ∧ u.job k = none ∧ (u.slot k).free ≤ u.tally ∧ u.coreUp (k / 4) = true ∧
        u.coreLeaves (k / 4) = false ∧ u.coreOver (k / 4) = false ∧
        ∀ c, c < 16 → u.coreUp c = true → u.coreLeaves c = false → u.coreOver c = false → (u.freeSlotOf c u.tally).isSome = true →
          u.coreLoad (k / 4) ≤ u.coreLoad c) ∧
      (∀ g x, r.frame = none → u.inst r.inst = some g → g.tasks[r.task]? = some x →
        u.progReads (u.entry (hIdx g.handle)).dom x.prog = false →
        exec (.jobPlace t) s = .next (({ u with dsp := { u.dsp with ready := u.dsp.ready.erase r } } : State).viol.memTrip 2
          (hIdx g.handle) u.tally)) ∧
      (∀ g x, r.frame = none → u.inst r.inst = some g → g.tasks[r.task]? = some x →
        u.progReads (u.entry (hIdx g.handle)).dom x.prog = true → Completes (exec (.jobPlace t) s) fun v =>
        (∃ j, v.job k = some j ∧ j.inst = r.inst ∧ j.task = r.task ∧ j.handle = g.handle ∧ j.dom = (u.entry (hIdx g.handle)).dom ∧
          j.elastic = x.elastic ∧ j.cls = x.cls ∧ j.prog = x.prog ∧ j.nword = fld (u.rd64 x.prog) 0 18 ∧
          j.pc = 4 * fld (u.rd64 x.prog) 18 18 ∧ j.preds = 0 ∧ j.wins = List.replicate 4 none ∧ j.calls = [] ∧ j.sems = [] ∧
          j.creds = [] ∧ j.wait = .no ∧ j.ready = r.stamp ∧
          j.reg 1 = ⟨x.arg.setWidth 64, false⟩ ∧ j.reg 2 = ⟨BitVec.ofNat 64 g.k, false⟩ ∧
          j.reg 3 = ⟨BitVec.ofNat 64 (g.ntok + 2 ^ 9 * nb g.final), false⟩ ∧ j.reg 4 = ⟨g.wend, false⟩ ∧
          ∀ n, (n = 0 ∨ (5 ≤ n ∧ n < 32)) → j.reg n = ⟨0, false⟩) ∧
        v.inst r.inst = some { g with issued := g.issued ||| (1#64 <<< r.task) } ∧ (∀ n, n ≠ r.inst → v.inst n = u.inst n) ∧
        (∀ n, n ≠ k → v.slot n = u.slot n) ∧ (v.slot k).gen ≠ (u.slot k).gen ∧ v.dsp.ready = u.dsp.ready.erase r ∧ v.man = u.man ∧
        MemSame u v 0 0) ∧
      (∀ f x, r.frame = some f → Tab.get u.dsp.frames f = some x → u.areaOk (u.frameAt f) frameSize = false →
        exec (.jobPlace t) s = .next (({ u with dsp := { u.dsp with ready := u.dsp.ready.erase r } } : State).viol.memTrip 2
          (hIdx x.job.handle) u.tally)) ∧
      (∀ f x, r.frame = some f → Tab.get u.dsp.frames f = some x → u.areaOk (u.frameAt f) frameSize = true → Completes (exec (.jobPlace t) s) fun v =>
        (∃ j, v.job k = some j ∧ { j with nextCall := x.job.nextCall } = x.job) ∧ (∀ n, n ≠ k → v.slot n = u.slot n) ∧
        ((∀ p q, p ∈ x.words → q ∈ x.words → p.1 = q.1 → p = q) → ∀ p, p ∈ x.words →
          Tab.get (v.slot k).words p.1 = some ⟨p.2.val, (v.slot k).gen, p.2.pois, true⟩) ∧
        (∀ n, n ≠ f → Tab.get v.dsp.frames n = Tab.get u.dsp.frames n) ∧ v.dsp.ready = u.dsp.ready.erase r ∧
        { v with pil := u.pil, dsp := u.dsp, cnt := u.cnt } = u ∧ MemSame u v 0 0)

/-- R178, R180, R234: a free semaphore goes to its first waiter, which holds it and resumes with RECLAIMED in gd; a suspended CRACQ
whose credits are free gets them whole and resumes with RECLAIMED and the count in gd. While the semaphore is held, or too few
credits are free, nothing happens. -/
def Obligations.WaitersGranted : Prop :=
  ∀ (t : Stamp) (s u : State), u = s.upTo t (kSub 5) → u.running = true →
    (∀ (dom : BitVec 8) (sem : BitVec 4) (w : Nat) (r : List Nat) (j : Job) (m : Nat) (c : Stamp) (gd : Nat),
      let d := dom.toNat
      let n := sem.toNat
      let x := (u.domOf d).sem n
      x.waiters = w :: r → u.job w = some j → j.wait = .sem m c gd → j.dom = d →
      (x.holder = none → Completes (exec (.semGrant t dom sem) s) fun v =>
        (v.domOf d).sem n = ⟨some w, r, false⟩ ∧ (∀ k, k ≠ n → (v.domOf d).sem k = (u.domOf d).sem k) ∧
        (∀ k, k ≠ d → v.domOf k = u.domOf k) ∧ (∀ k, k ≠ w → v.slot k = u.slot k) ∧
        (∃ j', v.job w = some j' ∧ RegsAfter j j' gd (BitVec.ofNat 64 (nb x.reclaimed)) false ∧ j'.wait = .no ∧
          j'.sems = j.sems ++ [n] ∧ { j' with regs := j.regs, wait := j.wait, sems := j.sems } = j) ∧
        { v with pil := u.pil, doms := u.doms, cnt := u.cnt } = u ∧ MemSame u v 0 0) ∧
      (x.holder ≠ none → exec (.semGrant t dom sem) s = .next u)) ∧
    (∀ (pool : Fin 8) (w : Nat) (r : List Nat) (j : Job) (p n : Nat) (c : Stamp) (gd : Nat),
      let x := u.group pool
      x.waiters = w :: r → u.job w = some j → j.wait = .cred p n c gd → n ≤ 64 →
      (n ≤ x.free → Completes (exec (.creditGrant t pool) s) fun v =>
        v.group pool = { x with waiters := r, free := x.free - n, marked := false } ∧
        (∀ k, k ≠ pool.val → v.group k = u.group k) ∧ (∀ k, k ≠ w → v.slot k = u.slot k) ∧
        (∃ j', v.job w = some j' ∧ RegsAfter j j' gd (BitVec.ofNat 64 (nb x.marked + n * 2 ^ 16)) false ∧ j'.wait = .no ∧
          Tab.getD j'.creds pool.val 0 = Tab.getD j.creds pool.val 0 + n ∧
          { j' with regs := j.regs, wait := j.wait, creds := j.creds } = j) ∧
        { v with pil := u.pil, fry := u.fry, cnt := u.cnt } = u ∧ MemSame u v 0 0) ∧
      (x.free < n → exec (.creditGrant t pool) s = .next u))

/-- A bank that R184 lets a switch make active: NSLOT, every LEN and OWNT in range, the round within 10 ms and, of it and the active
bank's, one a multiple of the other. -/
def Sys2Proof.Machine.SwitchAllowed (c : TtClass) : Prop :=
  let b := c.av && !c.active
  1 ≤ c.nslot b ∧ c.nslot b ≤ 256 ∧ (∀ k, k < c.nslot b → fld (c.word b k) 0 17 ≠ 0 ∧ fld (c.word b k) 18 2 ≠ 3) ∧
    c.round b ≤ 24000000 ∧ (c.av = true → c.round b % c.round c.active = 0 ∨ c.round c.active % c.round b = 0)

/-- R184, R258: a switch request that R184 allows pends from its stamp, with STATUS 01; one that it does not leaves a pending one and reads STATUS 10,
TT_SWITCH completing with OK or BAD_ARG. The switch comes at the first tally after the request at which rounds of both banks
start, and then the new bank is active, nothing pends, and BANK_SWITCHED is raised.
Choices of this model on which it rests: log entries 18 and 105. -/
def Obligations.BanksSwitch : Prop :=
  ∀ (t : Stamp) (s : State) (n : Fin 4),
    let asked := fun (u v : State) (c : TtClass) => (∀ k, k ≠ n.val → v.ttc k = u.ttc k) ∧
      (SwitchAllowed c → v.ttc n = { c with sw := some u.tally, status := 1 }) ∧
      (¬ SwitchAllowed c → v.ttc n = { c with status := 2 })
    let slots := fun (c : TtClass) (n0 n1 : Nat) => if c.av = false then { c with nslot0 := n0, nslot1 := n1 }
      else if c.active then { c with nslot0 := n0 } else { c with nslot1 := n1 }
    (∀ (u : State) (data : Word), u = s.upTo t 0 → u.alive = true → u.portFree = true → bitAt data 2 = true →
      Completes (exec (.ttClsSw t n data) s) fun v =>
        asked u v { slots (u.ttc n) (fld data 8 9) (fld data 17 9) with runlim := fld data 32 16 } ∧
        { v with tt := u.tt, cnt := u.cnt, lnd := { v.lnd with busyAt := u.lnd.busyAt }
                 pins := { v.pins with cnData := u.pins.cnData } } = u ∧ MemSame u v 0 0) ∧
    (∀ (u : State) (m : CellWords) (rest : List CqCell), u = s.upTo t 0 → u.Heads 0x30 m rest → domField m = 0 →
      fld (wordOf m 2) 0 2 = n.val →
      let c := slots (u.ttc n) (fld (wordOf m 2) 2 9) (fld (wordOf m 2) 2 9)
      Completes (exec (.ttSwitch t) s) fun v => asked u v c ∧ (SwitchAllowed c → Answered u v 0x30 m rest 0x00 []) ∧
        (¬ SwitchAllowed c → Answered u v 0x30 m rest 0x0A []) ∧ OnlyLanding u { v with tt := u.tt }) ∧
    (∀ (u : State) (c : TtClass) (r : Stamp), u = s.upTo t (kSub 3) → u.running = true → c = u.ttc n → c.sw = some r → SwitchAllowed c →
      (c.av = true → 0 < c.round c.active) →
      let b := c.av && !c.active
      let both := fun (x : Stamp) => r < x ∧ x % c.round b = 0 ∧ (c.av = true → x % c.round c.active = 0)
      ∃ x, both x ∧ (∀ y, both y → x ≤ y) ∧
        (u.tally < x → exec (.bankSwitch t n) s = .next u) ∧
        (x ≤ u.tally → Completes (exec (.bankSwitch t n) s) fun v => (v.ttc n).active = b ∧ (v.ttc n).av = true ∧ (v.ttc n).sw = none ∧
          (v.ttc n).words = c.words ∧ (v.ttc n).posAt = x ∧ (∀ k, k ≠ n.val → v.ttc k = u.ttc k) ∧ MemSame u v 0 0 ∧
          (u.roomFor 1 → (c.av = true → ∀ k, (u.ttc k).runlim = 0) →
            noticeCell u.clk.blkNum 0x8E 0 0 x [BitVec.ofNat 64 (n.val + 4 * nb b)] ∈ v.lnd.nq)))

/-- R171, R174, R175, R179: slots of a class follow one another in rounds from tally 0. At a boundary, a job of the Pilot class that the new slot does
not admit begins its overrun, or goes on with it, and one that it admits has none; the same holds of the running calls of another class,
those of gone jobs among them. An overrun that reaches RUNLIM faults its job with OVERRUN at that stamp.
A deferral window that ends on a job that still holds something and is still due faults it with HOLDLIM; otherwise the
window closes, and with it (a choice of this model, assumption 18) the overrun of a job that is no longer due.
Choices of this model on which it rests: log entry 18. -/
def Obligations.SlotsAndOverruns : Prop :=
  ∀ (t : Stamp) (s u : State), u = s.upTo t (kSub 3) → u.running = true →
    (∀ (n : Fin 4),
      let c := u.ttc n
      let x := c.current u.tally
      (0 < c.round c.active → x.1 < c.nslot c.active ∧ x.2 ≤ u.tally ∧ u.tally < x.2 + 240 * fld (c.word c.active x.1) 0 17 ∧
        (x.2 - ((c.slots c.active).take x.1).foldl (fun a w => a + 240 * fld w 0 17) 0) % c.round c.active = 0) ∧
      (c.av = false ∨ x.2 = c.posAt → exec (.slotBoundary t n) s = .next u) ∧
      (c.av = true → x.2 ≠ c.posAt → c.sw = none → (∀ k, (u.ttc k).runlim = 0) → Completes (exec (.slotBoundary t n) s) fun v =>
        (v.ttc n).posAt = x.2 ∧ (v.ttc n).posSlot = x.1 ∧ (∀ k, k ≠ n.val → v.ttc k = u.ttc k) ∧ v.man = u.man ∧ MemSame u v 0 0 ∧
        v.dsp.orphans = (u.dsp.orphans.map fun o => if n.val ≠ 0 ∧ o.call.op.cls = n.val ∧ o.call.started.isSome = true then
          { o with call := { o.call with
            lateAt := if u.elig n o.dom o.elastic x.2 = .no then some (o.call.lateAt.getD x.2) else none } } else o) ∧
        ∀ k j, u.job k = some j →
          let late := fun (o : Option Stamp) => if u.elig n j.dom j.elastic x.2 = .no then some (o.getD x.2) else none
          (n.val = 0 → v.job k = some { j with lateAt := late j.lateAt }) ∧
          (n.val ≠ 0 → v.job k = some { j with calls := j.calls.map fun d =>
            if d.op.cls = n.val ∧ d.started.isSome = true then { d with lateAt := late d.lateAt } else d }))) ∧
    (∀ (slot : Fin 64) (j : Job), u.job slot = some j →
      (∀ x, (∀ n, n < 4 → (u.ttc n).av = true → ((u.ttc n).current u.tally).2 = u.tally → (u.ttc n).posAt = u.tally) →
        j.lateAt = some x → (u.ttc 0).runlim ≠ 0 →
        let z := x + 240 * (u.ttc 0).runlim
        (z ≤ u.tally → exec (.overrun t slot) s = .next (u.jobFault slot 0x07 0 z)) ∧
        (u.tally < z → j.calls = [] → exec (.overrun t slot) s = .next u)) ∧
      ((∀ n, n < 4 → (u.ttc n).av = true → ((u.ttc n).current u.tally).2 = u.tally → (u.ttc n).posAt = u.tally) →
        j.lateAt = none → j.calls = [] → exec (.overrun t slot) s = .next u) ∧
      (∀ z, j.holdEnd = some z →
        (u.tally < z → exec (.holdlim t slot) s = .next u) ∧
        (z ≤ u.tally → j.holds = true → u.preemptDue slot j z = true →
          exec (.holdlim t slot) s = .next (u.jobFault slot 0x08 0 z)) ∧
        (z ≤ u.tally → j.holds = false ∨ u.preemptDue slot j z = false → Completes (exec (.holdlim t slot) s) fun v =>
          v.job slot = some { j with holdEnd := none, lateAt := if u.preemptDue slot j z then j.lateAt else none } ∧ (∀ k, k ≠ slot.val → v.slot k = u.slot k) ∧
          { v with pil := u.pil } = u ∧ MemSame u v 0 0)))

/-- R72, R74, R75, R173, R197, R229: the first eligible call of a class starts on a free unit. At its completion gd holds its status, unpoisoned, its
output is in scratch, and the call is gone: BADARG, which changes no state, where the key names nothing, an area leaves scratch or
CONT finds nothing to continue, NOSEG for a segment that
does not exist, otherwise what its unit computed; a call whose computation faults faults its job, a skewed row's behind its output (05 R94), and
one that may not read its memory trips the memory port (13 R287). A call of a job that is gone ends without a result. A view builder
builds the first waiting view into a free slot; without one it waits; the view of a chunk whose graph has ended is built and freed.
Choices of this model on which it rests: log entries 19 and 81. -/
def Obligations.CallsRun : Prop :=
  ∀ (t : Stamp) (s : State),
    (∀ (u : State) (cls : Fin 4) (q : Queued) (n : Nat), u = s.upTo t (kSub (clsSub cls.val)) → u.running = true → u.TabsSound → firstBy (callKey u cls u.tally) (u.callQueue cls u.tally) = some q →
      u.freeUnit q.call.op = some n → Completes (exec (.callStart t cls) s) fun v =>
        (q.call.issued + 4 ≤ u.tally ∧ q.call.started = none ∧ u.elig cls q.job.dom q.job.elastic u.tally ≠ .no) ∧
        (∃ j', v.job q.slot = some j' ∧ { j' with calls := q.job.calls } = q.job ∧ (∀ c, c ∈ q.job.calls →
          (c.id ≠ q.call.id → c ∈ j'.calls) ∧
          (c.id = q.call.id → ∃ d, d ∈ j'.calls ∧ d.id = c.id ∧ d.started = some (u.tally, n)))) ∧
        (∀ k, k ≠ q.slot → v.slot k = u.slot k) ∧ { v with pil := u.pil, cnt := u.cnt, man := u.man } = u ∧ OthersStand u v q.idx ∧
        (q.call.op ≠ .classify → v.man = u.man) ∧ MemSame u v 0 0) ∧
    (∀ (u : State) (slot : Fin 64) (call : Nat), u = s.upTo t (kSub (s.callSub slot call)) → u.running = true → u.mem.en = true →
      (∀ j, u.job slot = some j → (j.calls.find? fun x => x.id = call) = none) → exec (.callComplete t slot call) s = .next
        { u with dsp := { u.dsp with
          orphans := u.dsp.orphans.filter fun o => !(decide (o.slot = slot.val) && decide (o.call.id = call)) } }) ∧
    (∀ (u : State) (slot : Fin 64) (call : Nat) (j : Job) (c : Call) (g : GInst), u = s.upTo t (kSub (s.callSub slot call)) →
      u.running = true → u.mem.en = true → u.job slot = some j →
      (j.calls.find? fun x => x.id = call) = some c → u.rootInst j.inst = some g →
      let i := hIdx j.handle
      let noseg := (c.op = .matchOp ∨ c.op = .xlate ∨ c.op = .feature) ∧ g.answer = false ∧ noSeg (u.entry i) g c.seg = true
      let done := fun (v : State) (code spec count : Nat) (restart : Bool) (bytes : List Byte) =>
        (∃ j', v.job slot = some j' ∧ RegsAfter j j' c.gd (BitVec.ofNat 64 (code + 2 ^ 8 * nb restart + 2 ^ 16 * spec + 2 ^ 32 * count)) false ∧
          { j' with regs := j.regs, calls := j.calls, specs := j.specs } = j ∧ j'.calls = j.calls.filter fun d => d.id ≠ c.id) ∧
        v.slot slot = { ((u.slot slot).storeBytes c.out (bytes.map fun b => (b, false))) with job := v.job slot } ∧
        (∀ k, k ≠ slot.val → v.slot k = u.slot k)
      (noseg → Completes (exec (.callComplete t slot call) s) fun v => done v 2 0 0 false [] ∧
        { v with pil := u.pil, cnt := u.cnt, dsp := u.dsp } = u ∧ v.inst (u.rootOf j.inst) = some (g.abandon j c) ∧
        (∀ k, k ≠ u.rootOf j.inst → v.inst k = u.inst k) ∧ MemSame u v 0 0) ∧
      (¬ noseg → c.started = none → exec (.callComplete t slot call) s = .next u) ∧
      (¬ noseg → c.started ≠ none →
        (∀ ep a z, u.jobEpoch j = some ep → c.obj ep = some a → u.callSizes ep c = some z → c.fits z = false) ∨
          ((c.op = .matchOp ∨ c.op = .xlate) ∧ c.fl0 = true ∧ g.passOf j.inst j.task c = none) →
        Completes (exec (.callComplete t slot call) s) fun v => done v 0x10 0 0 false [] ∧ v.inst (u.rootOf j.inst) = some g ∧
          v.man = u.man ∧ MemSame u v 0 0) ∧
      (¬ noseg → c.started ≠ none → ∀ s' g' bytes code spec count,
        u.runCall i slot j g c = .done s' g' bytes code spec count → Completes (exec (.callComplete t slot call) s) fun v =>
          done v code spec count (c.restart && decide (code ≠ 0x10)) bytes ∧ v.inst (u.rootOf j.inst) = some g' ∧
          (∀ a, v.byte a = s'.byte a)) ∧
      (¬ noseg → c.started ≠ none → c.op = .classify → ∀ s' bytes spec count, u.runCall i slot j g c = .skew s' bytes spec count →
        exec (.callComplete t slot call) s =
          .next ((s'.deliverCall slot c bytes (statusWord 0 c.restart spec count)).jobFault slot 1 0 u.tally)) ∧
      (¬ noseg → c.started ≠ none → ∀ s', u.runCall i slot j g c = .fault s' 9 →
        exec (.callComplete t slot call) s = .next (s'.memTrip c.op.port i u.tally)) ∧
      (¬ noseg → c.started ≠ none → ∀ s' cause, u.runCall i slot j g c = .fault s' cause → cause ≠ 9 →
        exec (.callComplete t slot call) s = .next (s'.jobFault slot cause 0 u.tally))) ∧
    (∀ (u : State) (b : Fin 2) (w : View), u = s.upTo t (kSub 7) → u.alive = true → u.txtEn = true → u.mem.en = true → bitAt u.txt.fenced (20 + b.val) = false →
      u.nextView u.tally = some w →
      (u.freeVSlot = none → exec (.viewBuild t b) s = .next u) ∧
      (∀ n i, u.freeVSlot = some n → u.live w.handle = some i → u.viewOk i w n = false →
        exec (.viewBuild t b) s = .next ((u.dropView w.handle w.k).viol.memTrip 3 i u.tally)) ∧
      (∀ n i, u.freeVSlot = some n → u.live w.handle = some i → u.viewOk i w n = true →
        Completes (exec (.viewBuild t b) s) fun v =>
        let e := u.entry i
        let base := (u.vslot (((u.epochOf e).map fun p => p.vocab).getD 0)).base
        let inp := e.req.atext.utf8 ++ (w.toks.map fun x => (u.tokenBytes base x).getD []).flatten
        let r : Repaired Unit := repair w.final (inp.length + 1) (inp.map fun x => (x, ()))
        (w.gone = true → ∀ y, y ∈ v.txt.views → ¬ (y.handle = w.handle ∧ y.k = w.k)) ∧
        (w.gone = false → ∃ y, y ∈ v.txt.views ∧ y.handle = w.handle ∧ y.k = w.k ∧ y.built = true ∧ y.slot = some n ∧ y.cin = e.req.atext.utf8.length ∧
          y.bytes = r.out.map fun p => p.1) ∧
        (v.entry i).req.atext.utf8 = r.carry ∧ OthersStand u v i ∧ (v.entry i).state = e.state ∧ v.pil = u.pil ∧ v.dsp = u.dsp ∧
        MemSame u v 0 0))

/-! ### The memory side -/

/-- R271, R272, R287, R288, R294: the request that waits first on a port is issued under a tag that is not outstanding, a write reaching node memory; a load whose
check fails is not issued, counts in VY_MEM_VIOL and faults its job; a port transfers one request and one response an MCLK edge. A read return ends its tag and
gives the load's register its bytes, poisoned with their word or by ERR; ERR is counted and trips the port's detector. A flush writes the copy that is not current, leaves the current one, and turns CUR and FSEQ, through the state cache (R296); while VY_MEM_CTL.EN is 0 it waits (13 R309, log entry 84). A D0 is staged; a D1 commits it with
its descriptor, or is refused where the region leaves the window, meets another valid one or has no size; GEN moves on where V falls or
OWNER changes.
Choices of this model on which it rests: log entries 8 and 84. -/
def Obligations.MemoryPortTransfers : Prop :=
  ∀ (t : Stamp) (s : State),
    (∀ (u : State) (port : Fin 16) (q : MReq) (r : List MReq), u = s.upTo t (kSub 12) → u.alive = true → u.mem.en = true →
      let p := u.port port
      p.waitq = q :: r → p.out.length < 256 → p.shown.map (fun x => edgeUp 2 x.1) ≠ some (edgeUp 2 u.tally) →
      (u.reqOk q = true → u.MemSound → Completes (exec (.memoryRequest t port) s) fun v =>
        (∃ k, k < 256 ∧ Tab.get p.out k = none ∧ (v.port port).waitq = r ∧ (v.port port).shown = some (u.tally, k, q) ∧
          Tab.get (v.port port).out k = some q ∧ ∀ n, n ≠ k → Tab.get (v.port port).out n = Tab.get p.out n) ∧
        (∀ n, n ≠ port.val → v.port n = u.port n) ∧ { v with mem := u.mem, cnt := u.cnt } = u ∧
        (q.write = false → MemSame u v 0 0) ∧
        (q.write = true → MemSame u v q.line 128 ∧ ∀ k, k < 128 → v.byte (q.line + k) = q.data.extractLsb' (8 * k) 8)) ∧
      (∀ sl id inst, u.reqOk q = false → q.who = .ldm sl id inst → exec (.memoryRequest t port) s =
        .next ((u.setPort port { p with waitq := r }).viol.jobFault sl 0x18 0 u.tally))) ∧
    (∀ (u : State) (port : Fin 16) (write : Bool) (tag : BitVec 8) (data : BitVec 1024) (pois : BitVec 16) (err : Bool) (q : MReq),
      u = s.upTo t 0 → u.alive = true →
      let p := u.port port
      Tab.get p.out tag.toNat = some q → q.write = write →
      (p.resp.map (edgeUp 2) = some (edgeUp 2 u.tally) → exec (.memoryResponse t port write tag data pois err) s = .next u) ∧
      (p.resp.map (edgeUp 2) ≠ some (edgeUp 2 u.tally) →
      (err = false → p.errNext = false → Completes (exec (.memoryResponse t port write tag data pois err) s) fun v =>
        Tab.get (v.port port).out tag.toNat = none ∧ (∀ n, n ≠ tag.toNat → Tab.get (v.port port).out n = Tab.get p.out n) ∧
        (∀ n, n ≠ port.val → v.port n = u.port n) ∧ MemSame u v 0 0 ∧ { v with mem := u.mem, cnt := u.cnt, pil := u.pil } = u ∧
        (∀ sl id inst j l, q.who = .ldm sl id inst → u.job sl = some j → j.inst = inst →
          (j.ldms.find? fun x => x.id = id) = some l →
          (∃ j', v.job sl = some j' ∧ { j' with regs := j.regs, ldms := j.ldms } = j ∧ j'.ldms = j.ldms.erase l ∧
            (l.gr ≠ 0 → j'.reg l.gr = ⟨BitVec.ofNat 64 (fld data (8 * (l.addr % 128)) (8 * l.size)), pois.getLsbD (l.addr % 128 / 8)⟩) ∧
            ∀ k, k ≠ l.gr → j'.reg k = j.reg k) ∧ ∀ k, k ≠ sl → v.slot k = u.slot k)) ∧
      (err = true ∨ p.errNext = true → ∃ w, exec (.memoryResponse t port write tag data pois err) s = .next (w.errTrip port q.who p.errNext u.tally) ∧
        w.mem.mserr = (u.mem.mserr + 1) % 65536 ∧ Tab.get (w.port port).out tag.toNat = none ∧ MemSame u w 0 0 ∧
        ∀ sl id inst j l, q.who = .ldm sl id inst → u.job sl = some j → j.inst = inst → (j.ldms.find? fun x => x.id = id) = some l →
          ∃ j', w.job sl = some j' ∧ (l.gr ≠ 0 → (j'.reg l.gr).pois = true) ∧ ∀ k, k ≠ l.gr → j'.reg k = j.reg k))) ∧
    (∀ (u : State) (data : Word), u = s.upTo t 0 → u.alive = true → u.portFree = true →
      let only := fun (v : State) => { v with mem := u.mem, cnt := u.cnt, lnd := { v.lnd with busyAt := u.lnd.busyAt }
                                              pins := { v.pins with cnData := u.pins.cnData } } = u
      (let i := fld data 0 16
       bitAt data 16 = true → (u.entry i).state ≠ .free → u.mem.en = false → Completes (exec (.scFlush t data) s) fun v => only v ∧
         v.mem = { u.mem with scIdx := i, delayed := u.mem.delayed ++ [.flush i] }) ∧
      (∀ r, let i := fld data 0 16
        u.mem.en = true →
        bitAt data 16 = true → (u.entry i).state ≠ .free → u.ctlPage i = some r → u.pageOk r.page r.owner r.gen = true → r.role = 0 →
        r.owner = (u.entry i).dom → u.ownedWr (u.entry i).dom r.page 65536 = true → (∀ x, x ∈ u.mem.scLines → x.2.dirty = false) →
        Rising u.mem.scLines → u.MemSound → u.tally < 2 ^ 64 → (u.entry i).dom < 256 →
        (u.entry i).epoch < 65536 → Completes (exec (.scFlush t data) s) fun v =>
          let h := u.flushHdr r.page
          v.flushHdr r.page = ⟨!h.cur, (h.fseq + 1) % 2 ^ 32, u.tally, (u.entry i).dom, (u.entry i).epoch, (u.entry i).req.logfull⟩ ∧
          MemSame u v r.page 65536 ∧
          (∀ a, copyAddr r.page h.cur ≤ a → a < copyAddr r.page h.cur + 0x3F00 → v.byte a = u.byte a) ∧
          (v.rd (copyAddr r.page (!h.cur)) 4 = leBytes 4 (u.entry i).committed) ∧ OthersStand u v i ∧
          (v.entry i).state = (u.entry i).state ∧ v.mem.flushes = (u.mem.flushes + 1) % 2 ^ 32) ∧
      (Completes (exec (.rgnD0Write t data) s) fun v => only v ∧ v.mem = { u.mem with d0 := data }) ∧
      (let k := u.mem.sel
       let z := u.mem.d0
       let base := fld z 16 24 * 65536
       let size := fld data 0 24
       let meets := ∃ n x, (n, x) ∈ u.mem.rgns ∧ n ≠ k ∧ x.v = true ∧ base < x.base + x.size * 65536 ∧ x.base < base + size * 65536
       let bad := bitAt z 0 = true ∧ (size = 0 ∨ u.mem.win * 2 ^ 30 < base + size * 65536 ∨ meets)
       let old := u.region k
       (bad → Completes (exec (.rgnD1Write t data) s) fun v => only v ∧ v.mem = { u.mem with viol := (u.mem.viol + 1) % 2 ^ 32 }) ∧
       (¬ bad → Completes (exec (.rgnD1Write t data) s) fun v => only v ∧ { v.mem with rgns := u.mem.rgns } = u.mem ∧
         (∀ n, n ≠ k → v.region n = u.region n) ∧
         v.region k = ⟨bitAt z 0, bitAt z 1, bitAt z 2, base, size, fld data 32 8,
           if (old.v = true ∧ bitAt z 0 = false) ∨ fld data 32 8 ≠ old.owner then (if old.gen ≥ 255 then 1 else old.gen + 1)
           else old.gen⟩)))

/-! ### Domains and images -/

/-- R63, R253, R254: DOM_OPEN opens a closed domain with the settings it carries when every value is allowed; DOM_CLOSE closes one
other than 0 that no entry uses, retiring its epochs; a load under way there completes with NOT_OPEN (this model's choice, log entry 20). R255: an IMG_LOAD of a sound image that fits reserves the free epoch slot with its
number and stays open; no other domain's epoch and no request changes; it becomes live, and the command completes, when the load is done,
or it goes with REJECTED where a line of the image comes with MS_ERR. While VY_MEM_CTL.EN is 0 no image is read (13 R309). R256: IMG_ACTIVATE makes a live epoch that
was never active the active one; IMG_RETIRE frees a live epoch that was never active and has no entry. Otherwise each answers with the
status of its first failing check and changes nothing.
Choices of this model on which it rests: log entries 20 and 84. -/
def Obligations.DomainsAndEpochs : Prop :=
  ∀ (t : Stamp) (s : State),
    (∀ (u : State) (m : CellWords) (rest : List CqCell), u = s.upTo t 0 →
      let w2 := wordOf m 2
      let w3 := wordOf m 3
      let w4 := wordOf m 4
      let d := fld w2 0 8
      let c := domField m
      let num := fld w2 0 16
      let x := u.domOf c
      let ans := fun (i : Instr) (op st : Nat) => Completes (exec i s) fun v => Answered u v op m rest st [] ∧ OnlyLanding u v
      (u.Heads 0x20 m rest → c = 0 →
        let ok := 1 ≤ fld w3 0 9 ∧ fld w3 0 9 ≤ 256 ∧ (bitAt w3 10 = true → bitAt w2 8 = true) ∧ 1 ≤ fld w3 16 20 ∧
          fld w3 16 20 ≤ 1000000 ∧ 1 ≤ fld w3 36 24 ∧ fld w3 36 24 + 1 ≤ 10 * fld w3 16 20 ∧ 1 ≤ fld w4 0 8 ∧ fld w2 13 7 ≤ 64 ∧
          fld w2 20 17 ≤ 65536 ∧ fld w2 37 27 = 0 ∧ fld w3 12 4 = 0 ∧ fld w3 60 4 = 0 ∧ fld w4 10 54 = 0
        ((u.domOf d).isOpen = true → ans (.domOpen t) 0x20 0x18) ∧
        ((u.domOf d).isOpen = false → ¬ ok → ans (.domOpen t) 0x20 0x0A) ∧
        ((u.domOf d).isOpen = false → ok → Completes (exec (.domOpen t) s) fun v => Answered u v 0x20 m rest 0x00 [] ∧
          OnlyLanding u { v with doms := u.doms } ∧ (∀ k, k ≠ d → v.domOf k = u.domOf k) ∧
          v.domOf d = { u.domOf d with
            isOpen := true, nonenf := bitAt w2 8, dclass := fld w2 9 4, jobmax := fld w2 13 7, quota := fld w2 20 17
            ramp := ⟨fld w3 0 9, bitAt w3 9, bitAt w3 10, bitAt w3 11, fld w3 16 20, fld w3 36 24⟩
            pmax := fld w4 0 8, formB := bitAt w4 8, formT := bitAt w4 9, jobs := 0, active := none, ep0 := none, ep1 := none })) ∧
      (u.Heads 0x21 m rest → c = 0 →
        (d = 0 → ans (.domClose t) 0x21 0x0A) ∧ (d ≠ 0 → (u.domOf d).isOpen = false → ans (.domClose t) 0x21 0x05) ∧
        (d ≠ 0 → (u.domOf d).isOpen = true → u.inuse d ≠ 0 ∨ u.sharesVocab d = true → ans (.domClose t) 0x21 0x03) ∧
        (d ≠ 0 → (u.domOf d).isOpen = true → u.inuse d = 0 → u.sharesVocab d = false → Completes (exec (.domClose t) s) fun v =>
          v.lnd.cq = rest ∧ completionCell u.clk.blkNum (acceptedCmd u 0x21 m) 0x00 u.tally [] ∈ v.lnd.nq ∧
          ((∀ sel y, (u.domOf d).epoch sel = some y → y.loadCmd = none) → v.lnd.opens = u.lnd.opens) ∧
          (∀ sel y id o, (u.domOf d).epoch sel = some y → y.loadCmd = some id → u.OpenIs id o →
            completionCell u.clk.blkNum o 0x05 u.tally [0] ∈ v.lnd.nq) ∧ (v.domOf d).isOpen = false ∧ (v.domOf d).active = none ∧ (v.domOf d).ep0 = none ∧
          (v.domOf d).ep1 = none ∧ (∀ k, k ≠ d → v.domOf k = u.domOf k) ∧ v.man = u.man ∧ MemSame u v 0 0)) ∧
      (u.Heads 0x22 m rest →
        let img := fld w2 0 40
        let n := fld w3 0 16
        let has := fun (e : Option Epoch) => ∃ y, e = some y ∧ y.num = n
        let fails := fun st w => Completes (exec (.imgLoad t) s) fun v =>
          AnsweredToo u v 0x22 m rest st [w] ∧ v.man = u.man ∧ v.doms = u.doms ∧ v.tok = u.tok ∧ MemSame u v 0 0
        (x.isOpen = false → fails 0x05 0) ∧ (x.isOpen = true → x.ep0 ≠ none → x.ep1 ≠ none → fails 0x03 0) ∧
        (x.isOpen = true → x.ep0 = none ∨ x.ep1 = none → img % 64 ≠ 0 ∨ has x.ep0 ∨ has x.ep1 → fails 0x0A 0) ∧
        (x.isOpen = true → x.ep0 = none ∨ x.ep1 = none → img % 64 = 0 → ¬ has x.ep0 → ¬ has x.ep1 → u.mem.en = false →
          exec (.imgLoad t) s = .next u) ∧
        (x.isOpen = true → x.ep0 = none ∨ x.ep1 = none → img % 64 = 0 → ¬ has x.ep0 → ¬ has x.ep1 → u.mem.en = true →
          let dir := u.readDir c img
          (∀ f, u.imageFail dir = some f → fails 0x16 (BitVec.ofNat 64 (f.1 + f.2.1 * 2 ^ 8 + f.2.2 * 2 ^ 24))) ∧
          (∀ f, u.imageFail dir = none → u.placement dir = .error f →
            fails 0x08 (BitVec.ofNat 64 (f.1 + f.2.1 * 2 ^ 8 + f.2.2 * 2 ^ 24))) ∧
          (∀ pl, u.imageFail dir = none → u.placement dir = .ok pl →
            (u.writeAll (u.placeWrites dir pl (u.relocated dir pl))).2 = none → Completes (exec (.imgLoad t) s) fun v =>
              Opened u v 0x22 m rest ∧ v.man = u.man ∧ (∀ k, k ≠ c → v.domOf k = u.domOf k) ∧ (v.domOf c).active = x.active ∧
              (v.domOf c).epoch (!x.ep0.isSome) = x.epoch (!x.ep0.isSome) ∧
              (∃ e, (v.domOf c).epoch x.ep0.isSome = some e ∧ e.num = n ∧ e.live = false ∧ e.loadCmd = some u.lnd.nextId ∧
                e.image = dir.img ∧ e.masks = pl.masks) ∧
              (∀ k, k < pl.hdr ∨ pl.hdr + dir.nhdr ≤ k → v.hdr k = u.hdr k) ∧
              (∀ k, k < dir.nhdr → v.hdr (pl.hdr + k) = relocHdr pl (u.imgHdr dir k))))) ∧
      (u.Heads 0x23 m rest →
        (x.isOpen = false → ans (.imgActivate t) 0x23 0x05) ∧
        (x.isOpen = true → x.liveSlot num = none → ans (.imgActivate t) 0x23 0x0A) ∧
        (∀ sel e, x.isOpen = true → x.liveSlot num = some sel → x.epoch sel = some e →
          (x.active = some sel → ans (.imgActivate t) 0x23 0x02) ∧
          (x.active ≠ some sel → e.everAct = true → ans (.imgActivate t) 0x23 0x0A) ∧
          (x.active ≠ some sel → e.everAct = false → Completes (exec (.imgActivate t) s) fun v =>
            AnsweredToo u v 0x23 m rest 0x00 [] ∧ (v.domOf c).active = some sel ∧
            (v.domOf c).epoch sel = some { e with everAct := true } ∧ (∀ k, k ≠ c → v.domOf k = u.domOf k) ∧ v.man = u.man ∧
            MemSame u v 0 0))) ∧
      (u.Heads 0x24 m rest →
        (x.isOpen = false → ans (.imgRetire t) 0x24 0x05) ∧ (x.isOpen = true → x.liveSlot num = none → ans (.imgRetire t) 0x24 0x0A) ∧
        (∀ sel e, x.isOpen = true → x.liveSlot num = some sel → x.epoch sel = some e →
          (e.everAct = true ∨ u.epCount c sel ≠ 0 → ans (.imgRetire t) 0x24 0x03) ∧
          (e.everAct = false → u.epCount c sel = 0 → Completes (exec (.imgRetire t) s) fun v =>
            AnsweredToo u v 0x24 m rest 0x00 [] ∧ (v.domOf c).epoch sel = none ∧ (v.domOf c).epoch (!sel) = x.epoch (!sel) ∧
            (∀ k, k ≠ c → v.domOf k = u.domOf k) ∧ v.man = u.man ∧ MemSame u v 0 0)))) ∧
    (∀ (u : State) (dom : BitVec 8) (sel : Bool) (e : Epoch) (id : Nat) (o : OpenCmd) (err : Option (BitVec 40)), u = s.upTo t (kSub 1) →
      u.running = true → u.mem.en = true →
      let x := u.domOf dom.toNat
      let bad := err.bind fun a => u.lineFail dom.toNat e.image a.toNat
      x.epoch sel = some e → e.loadCmd = some id → (∀ y, x.epoch (!sel) = some y → y.loadCmd = none) → u.OpenIs id o →
      (bad = none → Completes (exec (.imgLoadDone t ⟨dom, err⟩) s) fun v =>
        (v.domOf dom.toNat).epoch sel = some { e with live := true, loadCmd := none } ∧
        (v.domOf dom.toNat).epoch (!sel) = x.epoch (!sel) ∧ (v.domOf dom.toNat).active = x.active ∧
        (∀ k, k ≠ dom.toNat → v.domOf k = u.domOf k) ∧ v.man = u.man ∧ MemSame u v 0 0 ∧
        (∃ w, Closed u v o 0x00 [BitVec.ofNat 64 (nb sel), w, BitVec.ofNat 64 (nb e.mwrap)])) ∧
      (∀ f, bad = some f → Completes (exec (.imgLoadDone t ⟨dom, err⟩) s) fun v =>
        (v.domOf dom.toNat).epoch sel = none ∧ (v.domOf dom.toNat).epoch (!sel) = x.epoch (!sel) ∧
        (∀ k, k ≠ dom.toNat → v.domOf k = u.domOf k) ∧ v.man = u.man ∧ MemSame u v 0 0 ∧
        v.mem.mserr = (u.mem.mserr + 1) % 65536 ∧ Closed u v o 0x16 [BitVec.ofNat 64 (f.1 + f.2.1 * 2 ^ 8 + f.2.2 * 2 ^ 24)]))

/-! ### Fences, swaps and golden sets -/

/-- R41, R86, R110, R111, R122, R130, R134, R258, R303, R317, R327, R339: GO of a kind with spares, the number's own unit in service and a spare
free, fences the unit, gives its number to the spare and raises FENCED; GO reads 1 and the swap is pending. While GO reads 1, or for a unit
fenced already, or while the one spare is in use, or no tile or core is spare, the GO is only counted; where the one spare has failed, the unit is
fenced without one and GO reads 0 at once. A text or front-stage unit is fenced for good; the job of a call that a text unit has in hand
faults (04 R65), a front-stage unit finishes its call (15 R356; DEDUCED, log entry 54); UNIT_FENCE does
the same and answers BAD_ARG, BUSY or NO_SPARE where it cannot. When its time has come the swap ends with SWAPPED, GO reads 0 and the command completes. A golden run clears DONE and
PASS; it ends with PASS set for exactly the units that passed and the others fenced.
Choices of this model on which it rests: log entries 14, 54 and 55. -/
def Obligations.UnitsFencedAndSwapped : Prop :=
  ∀ (t : Stamp) (s : State),
    let noteOf := fun (u : State) (op : Nat) (w : Nat) => noticeCell u.clk.blkNum op 0 0 u.tally [BitVec.ofNat 64 w]
    let started := fun (u v : State) (k n sp : Nat) (cmd : Option Nat) => v.goReads k = true ∧ v.unitFenced k n = true ∧
      v.serves k sp = some n ∧ v.man = u.man ∧ (∀ j, v.job j = u.job j) ∧ MemSame u v 0 0 ∧
      (u.roomFor 2 → noteOf u 0xA1 (k + 2 ^ 4 * n + 2 ^ 10) ∈ v.lnd.nq) ∧
      ∃ x, x ∈ v.wch.swaps ∧ x.kind = k ∧ x.num = n ∧ x.unit = sp ∧ x.host = true ∧ x.check = false ∧ x.cmd = cmd ∧
        x.due = (if k = 0 then some (u.tally + 49) else if k = 1 then some (u.tally + 3072) else if k = 2 then some (u.tally + 768)
          else none)
    let gone := fun (u v : State) (k n : Nat) => v.unitFenced k n = true ∧ v.man = u.man ∧ MemSame u v 0 0 ∧
      (u.roomFor 2 → noteOf u 0xA1 (k + 2 ^ 4 * n) ∈ v.lnd.nq)
    let only := fun (u v : State) => { v with cnt := u.cnt, lnd := { v.lnd with busyAt := u.lnd.busyAt }
                                              pins := { v.pins with cnData := u.pins.cnData } } = u
    (∀ (u : State) (data : Word), u = s.upTo t 0 → u.alive = true → u.portFree = true → bitAt data 8 = true →
      (∀ k n i, (k, n, i) ∈ [(0, fld data 0 3, Instr.tokSwap t data), (1, fld data 0 6, .clsSwap t data), (2, fld data 0 3, .treSwap t data),
          (5, fld data 0 4, .pilSwap t data), (6, fld data 0 3, .frySwap t data)] →
        (∀ sp, u.goReads k = false → u.isFenced k n = false → u.freeSpare k = some sp → u.swapsOf k n = [] → (k = 1 → n ≤ 31) →
          Completes (exec i s) fun v => started u v k n sp none) ∧
        (u.goReads k = false → u.isFenced k n = false → u.noSpare k = false → u.freeSpare k = none → (k = 1 → n ≤ 31) →
          Completes (exec i s) fun v => gone u v k n ∧ v.goReads k = false) ∧
        (u.goReads k = true ∨ u.isFenced k n = true ∨ u.noSpare k = true ∨ (k = 1 ∧ 31 < n) →
          Completes (exec i s) fun v => only u v)) ∧
      (let n := fld data 0 5
       (21 < n → Completes (exec (.txtFence t data) s) fun v => only u v) ∧
       (n ≤ 21 → u.unitFenced 4 n = false → u.textJobs n = [] → Completes (exec (.txtFence t data) s) fun v => gone u v 4 n) ∧
       (∀ sl, n ≤ 21 → u.unitFenced 4 n = false → u.TabsSound → sl ∈ u.textJobs n → Completes (exec (.txtFence t data) s) fun v =>
         v.unitFenced 4 n = true ∧ v.job sl = none) ∧
       (n ≤ 21 → u.unitFenced 4 n = true → Completes (exec (.txtFence t data) s) fun v => only u { v with txt := u.txt } ∧
         { v.txt with fenceU := u.txt.fenceU } = u.txt)) ∧
      (let n := fld data 0 1
       (u.unitFenced 3 n = false → Completes (exec (.fstFence t data) s) fun v => gone u v 3 n ∧ ∀ j, v.job j = u.job j) ∧
       (u.unitFenced 3 n = true → Completes (exec (.fstFence t data) s) fun v => only u { v with tre := u.tre } ∧
         { v.tre with fstUnit := u.tre.fstUnit } = u.tre))) ∧
    (∀ (u : State) (m : CellWords) (rest : List CqCell), u = s.upTo t 0 → u.Heads 0x31 m rest → domField m = 0 →
      let k := fld (wordOf m 2) 0 4
      let n := fld (wordOf m 2) 4 6
      let size := [8, 32, 8, 2, 22, 16, 8].getD k 0
      let refuse := fun st => Completes (exec (.unitFence t) s) fun v => Answered u v 0x31 m rest st [] ∧ OnlyLanding u v
      (size ≤ n → refuse 0x0A) ∧ (n < size → u.goReads k = true ∨ u.isFenced k n = true → refuse 0x03) ∧
      (n < size → u.goReads k = false → u.isFenced k n = false →
        (u.noSpare k = true → refuse 0x19) ∧
        (k ≠ 3 → k ≠ 4 → u.noSpare k = false → u.freeSpare k = none → Completes (exec (.unitFence t) s) fun v =>
          gone u v k n ∧ completionCell u.clk.blkNum (acceptedCmd u 0x31 m) 0x00 u.tally [] ∈ v.lnd.nq ∧ v.lnd.cq = rest) ∧
        (∀ sp, k ≠ 3 → k ≠ 4 → u.freeSpare k = some sp → u.swapsOf k n = [] → Completes (exec (.unitFence t) s) fun v =>
          started u v k n sp (some u.lnd.nextId) ∧ Opened u v 0x31 m rest) ∧
        ((k = 3 ∨ (k = 4 ∧ u.textJobs n = [])) ∧ u.swapsOf k n = [] → Completes (exec (.unitFence t) s) fun v =>
          gone u v k n ∧ AnsweredToo u v 0x31 m rest 0x00 []))) ∧
    (∀ (u : State) (kind : BitVec 4) (num : BitVec 6) (x : Swap), u = s.upTo t (kSub (kindSub kind.toNat)) → u.running = true →
      (u.wch.swaps.find? fun y => decide (y.kind = kind.toNat) && decide (y.num = num.toNat)) = some x →
      (x.kind = 5 → x.due = none → ∀ k, k < 4 → u.job (4 * x.num + k) ≠ none → exec (.swapped t kind num) s = .next u) ∧
      ∀ d, (x.due = some d ∨ (x.kind = 5 ∧ x.due = none ∧ (∀ k, k < 4 → u.job (4 * x.num + k) = none ∧ (u.slot (4 * x.num + k)).free ≤ x.since) ∧
        d = x.since + 2048)) →
      (u.tally < d → exec (.swapped t kind num) s = .next u) ∧
      (d ≤ u.tally → ¬ (x.kind = 2 ∧ u.tre.swapChk = true) → x.kind ≤ 6 → u.roomFor 1 → Completes (exec (.swapped t kind num) s) fun v =>
        noticeCell u.clk.blkNum 0xA2 0 0 d [BitVec.ofNat 64 (x.kind + 2 ^ 4 * x.num + 2 ^ 12 * x.unit)] ∈ v.lnd.nq ∧
        v.wch.swaps = u.wch.swaps.erase x ∧ (x.host = true → v.goReads x.kind = false) ∧ v.man = u.man ∧ v.pil.slots = u.pil.slots ∧
        MemSame u v 0 0 ∧ (∀ id o, x.cmd = some id → u.OpenIs id o → Closed u v o 0x00 []))) ∧
    (∀ (u : State) (data : Word), u = s.upTo t 0 → u.alive = true → u.portFree = true → bitAt data 48 = true →
      (u.cls.en = false → Completes (exec (.clsGold t data) s) fun v => only u { v with cls := u.cls } ∧
        v.cls = { u.cls with goldAddr := fld data 0 40, goldGo := true, goldDone := false, goldPass := 0 }) ∧
      (u.cls.en = true → Completes (exec (.clsGold t data) s) fun v => only u { v with cls := u.cls } ∧
        v.cls = { u.cls with goldAddr := fld data 0 40 }) ∧
      (u.tre.en = false → Completes (exec (.treGold t data) s) fun v => only u { v with tre := u.tre } ∧
        v.tre = { u.tre with goldAddr := fld data 0 40, swapChk := bitAt data 49, goldGo := true, goldDone := false, goldPass := 0 }) ∧
      (u.tre.en = true → Completes (exec (.treGold t data) s) fun v => only u { v with tre := u.tre } ∧
        v.tre = { u.tre with goldAddr := fld data 0 40, swapChk := bitAt data 49 })) ∧
    (∀ (bad : BitVec 34),
      (let u := s.upTo t (kSub 8)
       u.running = true → u.cls.goldGo = true → Completes (exec (.goldenRunDone t false bad) s) fun v => v.cls.goldDone = true ∧ v.cls.goldGo = false ∧
        v.man = u.man ∧ v.pil = u.pil ∧ MemSame u v 0 0 ∧
        ∀ n, n < 34 → (bitAt v.cls.goldPass n = true ↔ u.unitFenced 1 n = false ∧ bitAt bad n = false) ∧
          (bitAt bad n = true → v.unitFenced 1 n = true)) ∧
      (let u := s.upTo t (kSub 10)
       u.running = true → u.tre.goldGo = true → (∀ x, x ∈ u.wch.swaps → x.check = false) → Completes (exec (.goldenRunDone t true bad) s) fun v =>
        v.tre.goldDone = true ∧ v.tre.goldGo = false ∧ v.man = u.man ∧ v.pil = u.pil ∧ MemSame u v 0 0 ∧
        ∀ n, n < 9 → (bitAt v.tre.goldPass n = true ↔ u.unitFenced 2 n = false ∧ bitAt bad n = false) ∧
          (bitAt bad n = true → v.unitFenced 2 n = true)))

/-! ### Counter snapshots and injection -/

/-- R259, R369, R370: a SNAPSHOT into a region of domain 0 latches the banks with its stamp and hands its eight lines to memory port 2; it is BAD_ARG
elsewhere and BUSY while two are latched; it completes with its stamp when its lines are written. A periodic one is latched at each multiple of the
period, into the next place of the ring, or skipped. VY_CNT_CLR zeroes the values and OVF bits of the banks it names. R259, R319, R340: an INJECT is DISABLED without
INJ_EN, BAD_ARG for a point, mode or count that R314 does not give, BUSY while one is armed; otherwise it is armed, its injections 2,400
counts apart. One that applies is counted, a TRIP tripping its detector with INJ set; one that lapses is counted as lapsed; the last
completes the command, and a disarm completes it with CANCELLED.
Choices of this model on which it rests: log entries 66 and 101. -/
def Obligations.SnapshotsAndInjections : Prop :=
  ∀ (t : Stamp) (s : State),
    let line := fun (q : MReq) (a k seq : Nat) => q.write = true ∧ q.line = a + 128 * k ∧ q.be = BitVec.allOnes 128 ∧ q.who = .snap seq
    (∀ (u : State) (m : CellWords) (rest : List CqCell), u = s.upTo t 0 → u.Heads 0x33 m rest → domField m = 0 →
      let a := fld (wordOf m 2) 0 40
      let refuse := fun st (v : State) => Answered u v 0x33 m rest st [] ∧ OnlyLanding u { v with cnt := u.cnt }
      (u.owned 0 a 1024 = false → Completes (exec (.snapshot t) s) (refuse 0x0A)) ∧
      (u.owned 0 a 1024 = true → 2 ≤ u.cnt.snaps.length → Completes (exec (.snapshot t) s) (refuse 0x03)) ∧
      (u.owned 0 a 1024 = true → u.cnt.snaps.length < 2 → Completes (exec (.snapshot t) s) fun v =>
        Opened u v 0x33 m rest ∧ v.lnd.nq = u.lnd.nq ∧
        v.cnt.snaps = u.cnt.snaps ++ [⟨u.cnt.seq, u.tally, false, a, some u.lnd.nextId, 8⟩] ∧ v.cnt.seq = (u.cnt.seq + 1) % 2 ^ 32 ∧
        (∃ ls, (v.port 2).waitq = (u.port 2).waitq ++ ls ∧ ls.length = 8 ∧ ∀ k q, ls[k]? = some q → line q a k u.cnt.seq) ∧
        { v with lnd := u.lnd, cnt := u.cnt, mem := u.mem } = u ∧ MemSame u v 0 0)) ∧
    (∀ (u : State), u = s.upTo t (kSub 14) → u.running = true →
      (u.cnt.auto = true → 0 < u.cnt.period → ∃ d, u.cnt.autoAt < d ∧ d % (2400 * u.cnt.period) = 0 ∧
        (∀ y, u.cnt.autoAt < y → y % (2400 * u.cnt.period) = 0 → d ≤ y) ∧
        (u.tally < d → exec (.autoSnapshot t) s = .next u) ∧
        (d ≤ u.tally → 2 ≤ u.cnt.snaps.length → Completes (exec (.autoSnapshot t) s) fun v => { v with cnt := u.cnt } = u ∧
          v.cnt.snaps = u.cnt.snaps ∧ v.cnt.skipped = min 65535 (u.cnt.skipped + 1)) ∧
        (d ≤ u.tally → u.cnt.snaps.length < 2 → 0 < u.cnt.nsnap → Completes (exec (.autoSnapshot t) s) fun v =>
          let a := u.cnt.base + 1024 * (u.cnt.seq % u.cnt.nsnap)
          v.cnt.snaps = u.cnt.snaps ++ [⟨u.cnt.seq, d, true, a, none, 8⟩] ∧
          (∃ ls, (v.port 2).waitq = (u.port 2).waitq ++ ls ∧ ls.length = 8 ∧ ∀ k q, ls[k]? = some q → line q a k u.cnt.seq) ∧
          { v with cnt := u.cnt, mem := u.mem } = u ∧ MemSame u v 0 0)) ∧
      (∀ x id o, (u.cnt.snaps.find? fun y => decide (y.left = 0)) = some x → x.cmd = some id → u.OpenIs id o →
        Completes (exec (.snapshotWritten t) s) fun v => Closed u v o 0x00 [BitVec.ofNat 64 x.stamp] ∧
          v.cnt.snaps = u.cnt.snaps.filter (fun y => decide (y.seq ≠ x.seq)) ∧ v.mem = u.mem ∧ v.man = u.man)) ∧
    (∀ (u : State) (data : Word), u = s.upTo t 0 → u.alive = true → u.portFree = true →
      Completes (exec (.cntClr t data) s) fun v =>
        { v with cnt := u.cnt, lnd := { v.lnd with busyAt := u.lnd.busyAt }
                 pins := { v.pins with cnData := u.pins.cnData } } = u ∧ { v.cnt with banks := u.cnt.banks } = u.cnt ∧
        ∀ b cs, u.cnt.banks[b]? = some cs → v.cnt.banks[b]? = some (if bitAt data b = true then
          cs.map fun c => { c with value := 0, ovf := false } else cs)) ∧
    (∀ (u : State) (m : CellWords) (rest : List CqCell), u = s.upTo t 0 → u.Heads 0x32 m rest → domField m = 0 →
      let w := wordOf m 2
      let point := fld w 0 16
      let bad := instances (point / 256) ≤ point % 256 ∨ fld w 16 8 ∉ modes (point / 256) ∨ fld w 24 8 = 0
      let refuse := fun st => Completes (exec (.inject t) s) fun v => Answered u v 0x32 m rest st [] ∧ OnlyLanding u v
      (u.injEn = false → refuse 0x04) ∧ (u.injEn = true → bad → refuse 0x0A) ∧
      (u.injEn = true → ¬ bad → u.inj.armed ≠ none → refuse 0x03) ∧
      (u.injEn = true → ¬ bad → u.inj.armed = none → Completes (exec (.inject t) s) fun v => Opened u v 0x32 m rest ∧
        v.lnd.nq = u.lnd.nq ∧ { v with lnd := u.lnd, cnt := u.cnt, inj := u.inj } = u ∧
        v.inj.armed = some ⟨point, fld w 16 8, fld w 24 8, max (wordOf m 3).toNat u.tally, 0, 0, u.lnd.nextId⟩)) ∧
    (∀ (a : Armed),
      let due := a.from' + 2400 * (a.applied + a.lapsed)
      (∀ u, u = s.upTo t (kSub s.injSub) → u.running = true → u.inj.armed = some a → due ≤ u.tally → u.pointFenced a = false → a.mode = 1 →
        a.point / 256 ≠ 0x0E → a.point % 256 < instances (a.point / 256) → a.point < 65536 → Completes (exec (.injection t) s) fun v =>
          v.inj.count = (u.inj.count + 1) % 2 ^ 32 ∧
          (a.applied + 1 + a.lapsed < a.count → v.inj.armed = some { a with applied := a.applied + 1 }) ∧
          (a.count ≤ a.applied + 1 + a.lapsed → v.inj.armed = none) ∧
          fld v.wch.lastd 0 8 = a.point / 256 ∧ fld v.wch.lastd 8 8 = a.point % 256 ∧ bitAt v.wch.lastd 20 = true) ∧
      (∀ u, u = s.upTo t (kSub 14) → u.running = true → u.inj.armed = some a → due ≤ u.tally →
        u.pointFenced a = true ∨ (a.mode ≠ 1 ∧ due + 2400000 ≤ u.tally) → Completes (exec (.injectionLapse t) s) fun v =>
          v.inj.count = u.inj.count ∧ v.man = u.man ∧ MemSame u v 0 0 ∧
          (a.applied + (a.lapsed + 1) < a.count → v.inj.armed = some { a with lapsed := a.lapsed + 1 } ∧ v.lnd = u.lnd) ∧
          (a.count ≤ a.applied + (a.lapsed + 1) → v.inj.armed = none ∧
            ∀ o, u.OpenIs a.cmd o → Closed u v o 0x00 [BitVec.ofNat 64 (a.applied + 2 ^ 8 * (a.lapsed + 1))])) ∧
      (∀ u (data : Word) o, u = s.upTo t 0 → u.alive = true → u.portFree = true → bitAt data 0 = true → u.inj.armed = some a → u.OpenIs a.cmd o →
        Completes (exec (.injDisarm t data) s) fun v => v.inj = { u.inj with armed := none } ∧ Closed u v o 0x0E [] ∧ v.man = u.man ∧
          MemSame u v 0 0))

/-! ### The Logbook -/

/-- The Logbook stopped with LOG_FAIL of a reason: its device stands, and the reads and the erase that waited for it ended with DISABLED
(R328; that status is the model's choice: log entry 59). -/
def Sys2Proof.Machine.LogStopped (u v : State) (reason : Nat) : Prop :=
  v.log.failed = true ∧ v.log.mounted = false ∧ v.log.dev = u.log.dev ∧ v.wch = u.wch ∧ v.man = u.man ∧ v.mem = u.mem ∧
    v.log.op = .idle ∧ v.log.reads = [] ∧
    (u.roomFor 1 → noticeCell u.clk.blkNum 0xA8 0 0 u.tally [BitVec.ofNat 64 reason] ∈ v.lnd.nq) ∧
    ∀ id o, (u.log.eraseCmd = some id ∨ ∃ x, x ∈ u.log.reads ∧ x.cmd = id) → u.OpenIs id o →
      completionCell u.clk.blkNum o 0x04 u.tally [] ∈ v.lnd.nq

/-- R260, R328, R329, R332–R337: a coalescing window that has ended puts its record into staging with the next SEQ. A device write moves
records from the front of staging to consecutive slots from the head, or none where the head's slot may not be written; FULL is set once WRAP = 0
keeps what lies ahead. A sector erase clears exactly its slots, and one that fell due meanwhile begins; it waits while records of a
failing supply or block are written that its sector does not hold up. A write or
erase that the device reports as failed stops the Logbook with reason 001, an exceeded write time with 010. Setting EN mounts; the mount
scans from the newest checkpoint to the first empty slot (a device without one: log entry 100): it ends with the head there, the torn slots passed
counted, SEQ behind the highest found (the staged records take theirs then: log entry 23), BOOT above it, a BOOT record and LOG_MOUNTED, or with
LOG_FAIL; clearing EN cuts off what is under way
(log entry 59). A power-fail warning closes coalescing and puts POWER_FAIL first; its end only shows on the pin. LOG_READ copies exactly
the records of its range in SEQ order, or, refused by the regions, none (13 R287). LOG_ERASE with the current NONCE inside the window starts the erase, whose end leaves the ERASED record and
what was written behind it; any other is SEQUENCE and closes the window.
Choices of this model on which it rests: log entries 23, 59 and 100. -/
def Obligations.LogbookWritesAndReads : Prop :=
  ∀ (t : Stamp) (s : State),
    (∀ (u : State), u = s.upTo t (kSub 14) →
      (u.watchRuns = true → ∀ r, (u.wch.coal.filter fun c => decide (c.first + 2400000 ≤ u.tally)) = [r] → u.log.atFull = false →
        u.log.failed = false → u.wch.staging.length < 255 → Completes (exec (.coalesceWindowEnd t) s) fun v =>
          v.wch.coal = u.wch.coal.filter (fun c => decide (u.tally < c.first + 2400000)) ∧
          v.wch.staging = u.wch.staging ++ [{ r with seq := u.log.nextSeq, boot := u.log.boot }] ∧
          v.log.nextSeq = (u.log.nextSeq + 1) % 2 ^ 32 ∧ v.man = u.man ∧ v.mem = u.mem) ∧
      (u.logWrites = true → ∀ r q, u.wch.staging = r :: q →
        (u.log.writable = false → Completes (exec (.logRecordWrite ⟨t, false⟩) s) fun v => v.log.dev = u.log.dev ∧
          v.log.head = u.log.head ∧ v.wch = u.wch) ∧
        (u.log.writable = true → u.log.head < u.log.cap → 4 < u.log.cap →
          Completes (exec (.logRecordWrite ⟨t, false⟩) s) fun v => ∃ k, 1 ≤ k ∧ k ≤ 4 ∧ v.wch.staging = u.wch.staging.drop k ∧
            v.log.head = (u.log.head + k) % u.log.cap ∧
            (∀ j x, j < k → u.wch.staging[j]? = some x → Tab.get v.log.dev ((u.log.head + j) % u.log.cap) = some (some x)) ∧
            (∀ n, (∀ j, j < k → n ≠ (u.log.head + j) % u.log.cap) → Tab.get v.log.dev n = Tab.get u.log.dev n) ∧
            (u.log.nor = false → k = 1) ∧ (v.log.atEnd = true → v.log.full = true) ∧ v.man = u.man ∧ v.mem = u.mem) ∧
        Completes (exec (.logRecordWrite ⟨t, true⟩) s) fun v => LogStopped u v 1) ∧
      (∀ n, u.log.op = .sector n → u.nvmRuns = true → u.log.failed = false →
        (u.eraseWaits = false ∨ u.log.writable = false → Completes (exec (.sectorErase ⟨t, false⟩) s) fun v =>
          (∀ k, k / 1024 = n → Tab.get v.log.dev k = none) ∧
          (∀ k, k / 1024 ≠ n → Tab.get v.log.dev k = Tab.get u.log.dev k) ∧ { v with log := u.log } = u ∧
          { v.log with dev := u.log.dev, op := u.log.op } = u.log ∧
          v.log.op = (if u.clk.phase = .softLog then .idle else ({ v.log with op := .idle } : Logbook).eraseAhead)) ∧
        (u.eraseWaits = false ∨ u.log.writable = false → Completes (exec (.sectorErase ⟨t, true⟩) s) fun v => LogStopped u v 1) ∧
        (u.eraseWaits = true → u.log.writable = true → ∀ err, exec (.sectorErase ⟨t, err⟩) s = .next u)) ∧
      (u.nvmRuns = true → u.log.mounting = true → ∀ (ok : Bool) (bytes : BitVec 32),
        let good := ok = true ∧ 2 ^ 26 ≤ bytes.toNat ∧ bytes.toNat ≤ 2 ^ 31
        (¬ good → Completes (exec (.logMounted t ok bytes) s) fun v => LogStopped u v 0) ∧
        let cap := (bytes.toNat - 131072) / 64
        let start := ((u.log.ckpts.getLast?).map fun c => c.d0.toNat).getD 0
        let slot := fun (j : Nat) => Tab.get u.log.dev ((start + j) % cap)
        (∀ n, good → u.log.full = false → u.log.failed = false → u.wch.staging.length < 255 → start < cap → n < cap →
          u.log.dev.length < cap → (∀ j, j < n → slot j ≠ none) → slot n = none →
          let found := (u.log.ckpts.getLast?).toList ++ (List.range n).filterMap fun j => (slot j).join
          let torn := ((List.range n).filter fun j => decide (slot j = some none)).length
          let sq := if found = [] then 0 else ((found.map fun r => r.seq).foldl max 0 + 1) % 2 ^ 32
          let bt := ((found.map fun r => r.boot).foldl max 0 + 1) % 65536
          Completes (exec (.logMounted t ok bytes) s) fun v => v.log.mounted = true ∧ v.log.mounting = false ∧
            v.log.head = (start + n) % cap ∧ v.log.boot = bt ∧ v.log.torn = torn ∧ v.log.cap = cap ∧ v.log.dev = u.log.dev ∧
            v.log.nextSeq = (sq + u.wch.staging.length + 1) % 2 ^ 32 ∧ v.clk.kind = 7 ∧ v.man = u.man ∧ v.mem = u.mem ∧
            v.wch.staging.length = u.wch.staging.length + 1 ∧
            (∀ k (x : LRec), u.wch.staging[k]? = some x → v.wch.staging[k]? = some { x with seq := (sq + k) % 2 ^ 32, boot := bt }) ∧
            (∃ r, v.wch.staging.getLast? = some r ∧ r.typ = 0x0D ∧ r.cls = u.clk.kind ∧ r.d2 = BitVec.ofNat 64 torn ∧ r.boot = bt ∧
              r.seq = (sq + u.wch.staging.length) % 2 ^ 32) ∧
            (u.roomFor 3 → noticeCell u.clk.blkNum 0xA6 0 0 u.tally
              [pack 64 [(0, cap), (32, torn)], BitVec.ofNat 64 v.log.nextSeq] ∈ v.lnd.nq))) ∧
      (u.nvmRuns = true → u.log.mounted = true → u.log.failed = false →
        u.log.op ≠ .idle ∨ (u.logWrites = true ∧ u.wch.staging ≠ []) →
        Completes (exec (.writeTimeExceeded t) s) fun v => LogStopped u v 2) ∧
      (u.clk.absent = false → u.clk.pfwLow = false →
        (u.watchRuns = true → u.log.atFull = false → u.log.failed = false → Completes (exec (.powerFailWarning ⟨t, true⟩) s) fun v =>
          v.wch.coal = [] ∧ v.clk.pfwLow = true ∧ v.clk.pfwSeen = true ∧ v.log.pfw = (u.log.en && u.log.mounted) ∧
          v.log.dev = u.log.dev ∧ v.man = u.man ∧ v.mem = u.mem ∧ ∃ r q, v.wch.staging = r :: q ∧ r.typ = 0x0C ∧ r.first = u.tally ∧
            r.d0 = BitVec.ofNat 64 (u.wch.coal.length + u.wch.staging.length)) ∧
        (u.watchRuns = false → Completes (exec (.powerFailWarning ⟨t, true⟩) s) fun v =>
          { v with cnt := u.cnt } = { u with clk := { u.clk with
            pfwLow := true, pfwSeen := u.clk.pfwSeen || u.clk.pgLogic } })) ∧
      (u.clk.absent = false → u.clk.pfwLow = true → Completes (exec (.powerFailWarning ⟨t, false⟩) s) fun v =>
        v = { u with clk := { u.clk with pfwLow := false } }) ∧
      (∀ x r o, u.log.reads = x :: r → u.running = true → u.nvmRuns = true → u.log.mounted = true → u.mem.en = true →
        u.OpenIs x.cmd o → u.MemSound →
        (∀ k e, (k, some e) ∈ u.log.dev → e.seq < 2 ^ 32) → x.first < 2 ^ 32 →
        Completes (exec (.logReadDone t) s) fun v =>
          let off := fun (e : LRec) => (e.seq + 2 ^ 32 - x.first) % 2 ^ 32
          ∃ rs : List LRec, (∀ e, e ∈ rs ↔ (∃ k, (k, some e) ∈ u.log.dev) ∧ off e < x.count) ∧
            rs.Pairwise (fun a b => off a ≤ off b) ∧ v.log.reads = r ∧ v.log.dev = u.log.dev ∧ v.man = u.man ∧
            (u.atRisk = [] → ∃ n, Closed u v o 0x00
              [BitVec.ofNat 64 ((if u.ownedWr 0 x.addr (64 * rs.length) then rs.length % 65536 else 0) + n * 65536)]) ∧
            MemSame u v x.addr (64 * rs.length) ∧
            (u.ownedWr 0 x.addr (64 * rs.length) = true → v.rd x.addr (64 * rs.length) =
              rs.flatMap fun e => e.words.flatMap fun w => leBytes 8 w.toNat)) ∧
      (∀ slot id o, u.log.op = .all slot → u.nvmRuns = true → u.log.failed = false → u.log.eraseCmd = some id → u.OpenIs id o →
        (u.eraseWaits = false ∨ u.log.writable = false → Completes (exec (.logEraseDone ⟨t, false⟩) s) fun v => Closed u v o 0x00 [] ∧ v.log.erasing = false ∧
          v.log.full = false ∧ v.log.op = .idle ∧
          (∀ k, u.log.between slot u.log.head k = false → Tab.get v.log.dev k = none) ∧
          (∀ k, u.log.between slot u.log.head k = true → Tab.get v.log.dev k = Tab.get u.log.dev k) ∧
          (∃ c, v.log.ckpts = [c, c] ∧ c.typ = 0x11 ∧ c.d0 = BitVec.ofNat 64 slot) ∧
          v.log.nextSeq = u.log.nextSeq ∧ v.man = u.man ∧ v.mem = u.mem) ∧
        (u.eraseWaits = false ∨ u.log.writable = false → Completes (exec (.logEraseDone ⟨t, true⟩) s) fun v => LogStopped u v 1) ∧
        (u.eraseWaits = true → u.log.writable = true → ∀ err, exec (.logEraseDone ⟨t, err⟩) s = .next u))) ∧
    (∀ (u : State) (data : Word), u = s.upTo t 0 → u.alive = true → u.portFree = true →
      let only := fun (v : State) => { v with
        log := u.log, lnd := { v.lnd with busyAt := u.lnd.busyAt }, pins := { v.pins with cnData := u.pins.cnData } } = u
      (bitAt data 0 = true → u.log.en = false → u.log.mounted = false → u.clk.talign = true → u.clk.fatal = false →
        Completes (exec (.logMount t data) s) fun v => only v ∧ v.log = { u.log with
          en := true, nor := !bitAt data 1, wrap := bitAt data 2, verd := bitAt data 3, ce := bitAt data 4, mounting := true
          failed := false }) ∧
      (bitAt data 0 = true → u.log.en = false → u.clk.talign = false ∨ u.clk.fatal = true →
        Completes (exec (.logMount t data) s) fun v => only { v with cnt := u.cnt } ∧ v.log = u.log) ∧
      (bitAt data 0 = false → u.log.en = true → Completes (exec (.logMount t data) s) fun v => v.log.en = false ∧
        v.log.mounted = false ∧ v.log.mounting = false ∧ v.log.op = .idle ∧ v.log.reads = [] ∧ v.log.nor = u.log.nor ∧
        v.log.wrap = bitAt data 2 ∧ v.log.verd = bitAt data 3 ∧ v.log.ce = bitAt data 4 ∧ v.wch = u.wch ∧ v.man = u.man ∧ v.mem = u.mem ∧
        (u.wch.staging = [] → (∀ n, u.log.op ≠ .all n) → v.log.dev = u.log.dev))) ∧
    (∀ (u : State) (m : CellWords) (rest : List CqCell), u = s.upTo t 0 → domField m = 0 →
      (u.Heads 0x34 m rest →
        let a := fld (wordOf m 2) 0 40
        let n := fld (wordOf m 3) 32 16
        let bad := n = 0 ∨ u.owned 0 a (64 * n) = false
        let refuse := fun st => Completes (exec (.logRead t) s) fun v => Answered u v 0x34 m rest st [] ∧ OnlyLanding u v
        (bad → refuse 0x0A) ∧ (¬ bad → u.log.op ≠ .idle → refuse 0x03) ∧
        (¬ bad → u.log.op = .idle → u.log.mounted = false ∨ u.log.failed = true → refuse 0x04) ∧
        (¬ bad → u.log.op = .idle → u.log.mounted = true → u.log.failed = false → Completes (exec (.logRead t) s) fun v =>
          Opened u v 0x34 m rest ∧ v.log = { u.log with reads := u.log.reads ++ [⟨u.lnd.nextId, a, fld (wordOf m 3) 0 32, n⟩] } ∧
          { v with lnd := u.lnd, cnt := u.cnt, log := u.log } = u)) ∧
      (u.Heads 0x36 m rest →
        let armed := (∃ k, u.lnd.nonce = some k ∧ k.toNat = fld (wordOf m 2) 0 16) ∧ u.tally < u.lnd.armAt + 2400000000
        (¬ armed → Completes (exec (.logErase t) s) fun v => Answered u v 0x36 m rest 0x17 [] ∧ v.lnd.nonce = none ∧ OnlyLanding u v) ∧
        (armed → u.log.erasing = true → Completes (exec (.logErase t) s) fun v => Answered u v 0x36 m rest 0x03 [] ∧ OnlyLanding u v) ∧
        (armed → u.log.erasing = false → u.log.mounted = false ∨ u.log.failed = true → Completes (exec (.logErase t) s) fun v =>
          Answered u v 0x36 m rest 0x04 [] ∧ OnlyLanding u v) ∧
        (armed → u.log.erasing = false → u.log.mounted = true → u.log.failed = false → Completes (exec (.logErase t) s) fun v =>
          Opened u v 0x36 m rest ∧ v.log.erasing = true ∧ v.log.eraseCmd = some u.lnd.nextId ∧ v.man = u.man ∧ v.mem = u.mem ∧
          ∃ slot r, v.log.op = .all slot ∧
            slot = (if u.log.stopped then u.log.head / 1024 else (u.log.head / 1024 + 1) % u.log.sectors) * 1024 ∧ Tab.get v.log.dev slot = some (some r) ∧ r.typ = 0x0F ∧
            r.seq = u.log.nextSeq ∧ r.d2 = BitVec.ofNat 64 u.lnd.armAt ∧ v.log.head = u.log.nextSlot slot)))

/-! ### Detectors and recovery -/

/-- The unit k of a detector's fence and the entries of its jobs' requests, jobs and all else untouched by it. -/
def Sys2Proof.Machine.JobsStand (u v : State) : Prop := (∀ k, v.job k = u.job k) ∧ v.dsp = u.dsp ∧ v.man = u.man ∧ MemSame u v 0 0

/-- The request of entry i, in its state p, went into recovery at the present stamp with cause DETECTOR and the detector's code; nothing
of its context is left and nothing of another request changed (R182, R321). -/
def Sys2Proof.Machine.Recovering (u v : State) (i code : Nat) : Prop :=
  (v.entry i).state = .recover ∧ (v.entry i).req.step = none ∧
    (∃ r, (v.entry i).req.recov = some r ∧ r.prior = (u.entry i).state ∧ r.first = u.tally ∧ r.faults = 1 ∧ r.restored = none ∧
      r.cause = 9 ∧ r.code = code) ∧
    (∀ k j, v.job k = some j → j.handle ≠ u.handleOf i) ∧ (∀ k j, u.job k = some j → j.handle ≠ u.handleOf i → v.job k = some j) ∧
    (∀ p, p ∈ v.dsp.insts ↔ p ∈ u.dsp.insts ∧ p.2.handle ≠ u.handleOf i) ∧ OthersStand u v i ∧ MemSame u v 0 0

/-- R314, R315, R318, R321, R324: what a trip does. A unit in service is fenced; with no job on it, the jobs and requests stand; else its
jobs leave and their requests recover, and the transfers of the last 12 cycles on a failed lane carry FAULT. A unit that the host has fenced and that
finishes its work faults the jobs it serves, a fenced lane the transfers it still has in flight. A corrected error is counted. An uncorrected word of the transition store, a mask or a Manifest entry that
has to be repaired is listed for 64 counts, and the transfers that touch it carry FAULT and their requests recover. A trip of a request's state, view, Hold entries
or port data makes that request recover, or stops it where recovery is disabled. A parity error in job scratch poisons the word. An uncorrectable
Manifest error, control logic and the clock fail the block. R318: once its BLOCK_FAIL record is written, the block enters its reset. R321, R324: the
end of the restore installs the current copy; a page of another generation, or the time limit, stops the request; a read that the regions
refuse is a further fault (13 R287).
Choices of this model on which it rests: log entries 16, 32, 35 and 54. -/
def Obligations.DetectorsAct : Prop :=
  ∀ (t : Stamp) (s : State),
    (∀ (u : State) (code inst : BitVec 8) (place : BitVec 32) (corr : Bool), u = s.upTo t (kSub (codeSub code.toNat inst.toNat)) →
      u.running = true → u.TabsSound → inst.toNat < instances code.toNat →
      let i := Instr.detectorTrip t code inst place corr
      let last := fun (v : State) (action : Nat) => fld v.wch.lastd 0 8 = code.toNat ∧ fld v.wch.lastd 8 8 = inst.toNat ∧
        fld v.wch.lastd 16 4 = action ∧ bitAt v.wch.lastd 20 = false
      let recovers := fun (v : State) (h : Handle) => ∀ e, u.live h = some e → u.wch.recEn = true → (u.entry e).req.recov = none →
        (u.entry e).state = .prompt ∨ (u.entry e).state = .answer → (v.entry e).state = .recover
      let wordHit := fun (v : State) => (∀ y, y ∈ v.tok.path → y.touches code.toNat place.toNat u.tally = true → y.fault = true) ∧
        ∀ y, y ∈ u.tok.path → y.touches code.toNat place.toNat u.tally = true → y.fault = false → y.passed = true → recovers v y.handle
      let listed := fun (v : State) => v.wch.repairs = u.wch.repairs ++ [(code.toNat, place.toNat, u.tally + 64)]
      (∀ k, codeKind code.toNat = some k →
        (u.unitFenced k inst.toNat = true →
          ((∀ w, w ∈ u.wch.swaps → ¬ (w.kind = k ∧ w.old = inst.toNat ∧ w.host = true)) →
            (k = 2 ∨ k = 3 → u.usersOf k inst.toNat inst.toNat = []) →
            (k = 0 → ∀ y, y ∈ u.tok.path → y.onLane inst.toNat u.tally = true → y.fault = true) →
            exec i s = .next { u with wch := { u.wch with injNow := false } }) ∧
          (k = 0 → inst.toNat < 8 → (∀ w, w ∈ u.wch.swaps → ¬ (w.kind = 0 ∧ w.old = inst.toNat ∧ w.host = true)) →
            u.tok.spareUsed = false ∨ u.tok.spareFor ≠ inst.toNat → Completes (exec i s) fun v =>
              ∀ y, y ∈ v.tok.path → y.onLane inst.toNat u.tally = true → y.fault = true) ∧
          (∀ w, k ≠ 0 → u.wch.swaps = [w] → w.kind = k → w.old = inst.toNat → w.host = true → Completes (exec i s) fun v =>
            v.unitFenced k inst.toNat = true ∧ ∀ sl, sl ∈ u.usersOf k inst.toNat w.num → v.job sl = none ∧
              ∀ j, u.job sl = some j → recovers v j.handle)) ∧
        (u.unitFenced k inst.toNat = false → Completes (exec i s) fun v => v.unitFenced k inst.toNat = true ∧
          (∀ n, u.numberOf k inst.toNat = some n → k ≠ 0 → u.usersOf k inst.toNat n = [] →
            JobsStand u v ∧ last v (if k = 3 ∨ k = 4 then 2 else 1)) ∧
          (∀ n, u.numberOf k inst.toNat = some n → k ≠ 0 → ∀ sl, sl ∈ u.usersOf k inst.toNat n → v.job sl = none ∧
            ∀ j, u.job sl = some j → recovers v j.handle) ∧
          (∀ n, k = 0 → u.numberOf 0 inst.toNat = some n → u.incoming 0 inst.toNat = false →
            ∀ y, y ∈ v.tok.path → y.onLane n u.tally = true → y.fault = true))) ∧
      (corr = true → code = 0x02#8 ∨ code = 0x03#8 ∨ code = 0x04#8 → Completes (exec i s) fun v =>
        v.wch.ce = (u.wch.ce + 1) % 2 ^ 48 ∧ last v 0 ∧ v.tok = u.tok ∧ JobsStand u v ∧ (u.wch.ceNote = false → u.log.ce = false → v.lnd = u.lnd)) ∧
      (corr = false → code = 0x02#8 → Completes (exec i s) fun v => last v 3 ∧ wordHit v ∧ listed v) ∧
      (corr = false → code = 0x03#8 → Completes (exec i s) fun v => last v 3 ∧ v.tok = u.tok ∧ JobsStand u v ∧ listed v) ∧
      (corr = false → code = 0x04#8 → Completes (exec i s) fun v => last v 4 ∧ wordHit v) ∧
      (corr = true → code = 0x06#8 → Completes (exec i s) fun v => last v 3 ∧ wordHit v ∧ listed v) ∧
      (∀ e, let x := u.entry e
        (corr = false ∧ code = 0x04#8 ∧ u.stateOwner place.toNat = some e ∧
            ∀ y, y ∈ u.tok.path → y.touches 4 place.toNat u.tally = false) ∨
          ((code = 0x05#8 ∨ code = 0x0E#8 ∨ (corr = false ∧ code = 0x0F#8)) ∧ u.placeEntry place.toNat = some e) →
        x.req.recov = none → x.state = .prompt ∨ x.state = .answer ∨ x.state = .migOut ∨ x.state = .reuse →
        Completes (exec i s) fun v => last v 4 ∧
          (u.wch.recEn = true → Recovering u v e code.toNat) ∧
          (u.wch.recEn = false → x.state ≠ .reuse → (v.entry e).state = .stopped ∧ OthersStand u v e)) ∧
      (code = 0x08#8 → Completes (exec i s) fun v => last v 6 ∧ JobsStand u v ∧
        (∀ k, k ≠ inst.toNat → v.slot k = u.slot k) ∧
        (∀ k, k ≠ place.toNat → Tab.get (v.slot inst.toNat).words k = Tab.get (u.slot inst.toNat).words k) ∧
        ∀ w, Tab.get (u.slot inst.toNat).words place.toNat = some w →
          Tab.get (v.slot inst.toNat).words place.toNat = some { w with pois := true }) ∧
      (code = 0x0A#8 ∨ (code = 0x0F#8 ∧ corr = true) → Completes (exec i s) fun v => last v 5 ∧ v.tok = u.tok ∧ JobsStand u v) ∧
      ((code = 0x06#8 ∧ corr = false) ∨ code = 0x11#8 ∨ code = 0x12#8 → Completes (exec i s) fun v => last v 7 ∧
        v.clk = { u.clk with phase := .failing, kind := min u.clk.kind 1 } ∧ v.pins = Pins.idle ∧ v.wch.coal = [] ∧
        (∀ k, (v.group k).phase = .down) ∧ v.aliveHigh = u.aliveHigh ∧ v.alive = false ∧ JobsStand u v ∧
        ∃ r q, v.wch.staging = r :: q ∧ r.typ = 0x0B ∧ r.cls = code.toNat ∧ r.first = u.tally ∧ r.d0 = BitVec.ofNat 64 inst.toNat)) ∧
    (∀ (u : State), u = s.upTo t (kSub 14) →
      (u.running = true → Completes (exec (.repairDone t) s) fun v => { v with wch := u.wch } = u ∧
        v.wch = { u.wch with repairs := u.wch.repairs.filter fun r => decide (u.tally < r.2.2) }) ∧
      (u.clk.phase = .failing → u.failPending = true → exec (.blockReset t) s = .next u) ∧
      (u.clk.phase = .failing → u.failPending = false → Completes (exec (.blockReset t) s) fun v =>
        v.clk.phase = .blockReset ∧ v.aliveHigh = false ∧ v.tally = 0 ∧ v.pending = u.pending ∧ v.clk.kind = min u.clk.kind 1 ∧
        v.clk.talign = false ∧ (∀ k, v.entry k = Entry.init 1) ∧ (∀ k, v.job k = none) ∧
        (∀ k, (v.region k).v = false ∧ (v.region k).gen = (u.region k).gen) ∧
        (u.wch.staging = [] → (∀ n, u.log.op ≠ .all n) → v.log.dev = u.log.dev) ∧ MemSame u v 0 0)) ∧
    (∀ (u : State) (idx : BitVec 16) (r : Recovery), u = s.upTo t (kSub 14) → u.running = true → (u.entry idx.toNat).req.recov = some r →
      (u.entry idx.toNat).state = .recover →
      let i := idx.toNat
      let e := u.entry i
      let stops := fun (v : State) => (v.entry i).state = .stopped ∧ (v.entry i).req.recov = none ∧
        v.wch.recBad = (u.wch.recBad + 1) % 2 ^ 16 ∧ OthersStand u v i ∧ MemSame u v 0 0
      (r.first + 2400 * u.wch.reclim ≤ u.tally → Completes (exec (.recoveryLimit t idx) s) stops) ∧
      (u.tally < r.first + 2400 * u.wch.reclim → exec (.recoveryLimit t idx) s = .next u) ∧
      (∀ p, r.restored = none → u.mem.en = true → u.ctlPage i = some p →
        (u.owned e.dom p.page 65536 = false → r.faults < 3 → Completes (exec (.restoreEnd t idx) s) fun v =>
          v.mem.viol = (u.mem.viol + 1) % 2 ^ 32 ∧ fld v.wch.lastd 0 8 = 0x0E ∧ (v.entry i).state = .recover ∧ OthersStand u v i ∧
          MemSame u v 0 0 ∧ ∃ r', (v.entry i).req.recov = some r' ∧ r'.faults = r.faults + 1 ∧ r'.restored = none ∧ r'.first = r.first) ∧
        (u.owned e.dom p.page 65536 = true → u.pageOk p.page p.owner p.gen = false → Completes (exec (.restoreEnd t idx) s) stops) ∧
        (u.owned e.dom p.page 65536 = true → u.pageOk p.page p.owner p.gen = true → r.prior ≠ .reuse →
          u.tally < r.first + 2400 * u.wch.reclim →
          let c := u.current i p.page
          Completes (exec (.restoreEnd t idx) s) fun v => v.four i = c.states ∧ (v.entry i).req.kv = c.kv ∧
            (v.entry i).req.ptext = c.ptext ∧ (v.entry i).req.atext = c.atext ∧ (v.entry i).req.acc = c.acc ∧
            (v.entry i).committed = e.committed ∧ (v.entry i).req.pview = e.req.pview ∧ OthersStand u v i ∧
            ((∀ l, l ∈ u.mem.scLines → l.2.dirty = false) → MemSame u v 0 0) ∧
            (c.committed < e.committed → (v.entry i).state = .recover ∧
              (v.entry i).req.recov = some { r with restored := some u.tally, nextPos := c.committed }) ∧
            (e.committed ≤ c.committed → e.req.stop = none → e.req.ended = false →
              (v.entry i).state = r.prior ∧ (v.entry i).req.recov = none ∧ v.wch.recOk = (u.wch.recOk + 1) % 2 ^ 16))) ∧
      (r.restored = none → u.mem.en = false → exec (.restoreEnd t idx) s = .next u))

/-- R315, R40: a TOKEN whose path reads a header word of the transition store that is under repair at the read is captured, but writes no
automaton state: it is marked FAULT, and its request recovers. It is marked at its capture (the model's choice: log entry 32).
Choices of this model on which it rests: log entry 32. -/
def Obligations.RepairMarksReaders : Prop :=
  ∀ (t : Stamp) (lane : Fin 8) (h : Handle) (tok : BitVec 18) (resv : BitVec 30) (s u : State), u = s.upTo t 0 →
    u.laneReady lane u.tally = true → spaced (u.lastXfer h) u.tally = true → ∀ i ep n st due, u.lookup h .token = some i →
      u.epochOf (u.entry i) = some ep → (n, st) ∈ slotStates ep.slotEn (u.four i) → (2, hdrPlace st, due) ∈ u.wch.repairs →
      u.tally + 3 < due → (∀ y, y ∈ u.tok.path → ¬ (y.lane = lane.val ∧ y.stamp = u.tally)) → u.wch.recEn = true →
      (u.entry i).req.recov = none → (u.entry i).state = .prompt ∨ (u.entry i).state = .answer →
      Completes (exec (.token t lane h tok resv) s) fun v => v.four i = u.four i ∧ (v.entry i).state = .recover ∧ OthersStand u v i ∧
        (v.entry i).committed = (u.entry i).committed ∧ MemSame u v 0 0 ∧
        ∃ f, f ∈ v.tok.path ∧ f.lane = lane.val ∧ f.handle = h ∧ f.stamp = u.tally ∧ f.fault = true ∧ f.notes = []

/-! ### The Ferry link -/

/-- Nothing but the Ferry, the event counts and the interrupt line (13 R299) differs. -/
def Sys2Proof.Machine.OnlyFerry (u v : State) : Prop :=
  { v with fry := u.fry, cnt := u.cnt, pins := { v.pins with irq := u.pins.irq } } = u ∧ MemSame u v 0 0

/-- A packet of group g passes the checks of R301 and R305. -/
def Sys2Proof.Machine.State.inOrder (u : State) (g : Nat) (p : PktHdr) : Prop := pktSound p = true ∧ p.seq.toNat = (u.group g).rxSeq

/-- The group receives from its peer, nothing waits to be sent over it, and the peer is not due to be lost. -/
def Sys2Proof.Machine.State.calm (u : State) (g : Nat) : Prop :=
  u.fry.loop = false ∧ (u.group g).backlog = [] ∧ (u.group g).feed = [] ∧
    ∀ q, (u.group g).lastGood = some q → u.tally < q + 2400000

/-- What the retry buffer of a group still holds when a packet with ACKSEQ `ack` has come (R304, R305). -/
def Sys2Proof.Machine.unacked (x : Group) (ack : Nat) : List Sent :=
  x.retry.filter fun q => decide (0 < (q.seq + 65536 - ack) % 65536) && decide ((q.seq + 65536 - ack) % 65536 < 32768)

/-- The accepted packet is proof of life, and the next one in order is awaited (R305, R308). -/
def Sys2Proof.Machine.Accepted (u v : State) (g : Nat) : Prop :=
  (v.group g).lastGood = some u.tally ∧ (v.group g).rxSeq = ((u.group g).rxSeq + 1) % 65536

/-- The latest packet sent, as group g of u sends it: the next SEQ, the receive places freed, the last SEQ received in order (R304). -/
def Sys2Proof.Machine.SentLast (u v : State) (g : Nat) (p : TxPkt) : Prop :=
  v.fry.sent.getLast? = some ⟨g, u.tally, (u.group g).txSeq, min (u.group g).freed 1023, ((u.group g).rxSeq + 65535) % 65536, p⟩

/-- The latest packet sent, as group g sends it in answer to the packet that u took in order (R304). -/
def Sys2Proof.Machine.Replied (u v : State) (g : Nat) (p : TxPkt) : Prop :=
  v.fry.sent.getLast? = some ⟨g, u.tally, (u.group g).txSeq, min ((u.group g).freed + 1) 1023, (u.group g).rxSeq, p⟩

/-- R302–R304: training runs through its four phases, starting anew after a phase's limit with LINK_DOWN; phase 4 sends this block's LINK packet,
and the peer's brings the group up with LINK_UP; a LINK packet that names a lane makes the same swap. R308: a BEAT goes out every 24,000
counts, and 1 ms without a good packet is PEER_LOST. R310: VY_FRY_CTL.
Choices of this model on which it rests: log entries 44 and 45. -/
def Obligations.FerryTrains : Prop :=
  ∀ (t : Stamp) (group : Fin 8) (s : State),
    let g := group.val
    let limit := fun (n : Nat) => if n = 2 then 24000000 else 2400000
    let othersUp := fun (u v : State) => ∀ k, k ≠ g → v.group k = u.group k
    (∀ (u : State) (data : Word), u = s.upTo t 0 → u.alive = true → u.portFree = true → u.clk.talign = true → u.clk.fatal = false →
      Completes (exec (.fryTrainingStart t data) s) fun v =>
        OnlyFerry { u with pins := v.pins, lnd := v.lnd } v ∧ { v.pins with cnData := u.pins.cnData } = u.pins ∧
        { v.lnd with busyAt := u.lnd.busyAt } = u.lnd ∧
        v.fry.en = bitAt data 0 ∧ v.fry.miren = bitAt data 4 ∧ v.fry.mirg = fld data 5 3 ∧
        (u.fry.en = true → v.fry.groups = u.fry.groups ∧ v.fry.loop = u.fry.loop) ∧
        (u.fry.en = false → v.fry.groups = fld data 1 2 ∧ v.fry.loop = bitAt data 3) ∧
        (u.fry.en = false → bitAt data 0 = true → ∀ k, k < 2 ^ fld data 1 2 → (v.group k).phase = .train 1 ∧ (v.group k).since = u.tally) ∧
        (u.fry.en = true → bitAt data 0 = false → v.fry.looped = [] ∧ ∀ k, (v.group k).phase = .down) ∧
        (u.fry.en = bitAt data 0 → v.fry.grp = u.fry.grp)) ∧
    (∀ (u : State) (n : Nat), u = s.upTo t (kSub 13) → u.running = true → (u.group g).phase = .train n →
      let due := (u.group g).since + limit n
      (u.tally < due → exec (.trainingPhaseTimeout t group) s = .next u) ∧
      (due ≤ u.tally → Completes (exec (.trainingPhaseTimeout t group) s) fun v => (v.group g).phase = .train 1 ∧ (v.group g).since = due ∧
        othersUp u v ∧ v.man = u.man ∧ MemSame u v 0 0 ∧
        (u.roomFor 1 → noticeCell u.clk.blkNum 0xB1 0 0 due [BitVec.ofNat 64 (g + n * 8)] ∈ v.lnd.nq)) ∧
      (due ≤ u.tally → exec (.trainingPhaseComplete t group) s = .next u) ∧
      (n < 4 → u.tally < due → Completes (exec (.trainingPhaseComplete t group) s) fun v => (v.group g).phase = .train (n + 1) ∧
        (v.group g).since = u.tally ∧ othersUp u v ∧ OnlyFerry u v ∧
        (n = 3 → SentLast u v g ⟨1, 0, 0, .link u.clk.blkNum u.fry.groups 1023 none, false⟩))) ∧
    (∀ (u : State) (p : PktHdr) (peer : BitVec 6) (groups : BitVec 2) (credits : BitVec 10), u = s.upTo t 0 → u.running = true →
      u.fry.en = true → u.calm g → u.inOrder g p →
      let x := u.group g
      (x.phase = .train 4 → u.tally < x.since + 2400000 → Completes (exec (.ferryLinkPacket t group p ⟨peer, groups⟩ credits none) s) fun v =>
        (v.group g).phase = .up ∧ (v.group g).peer = peer.toNat ∧ (v.group g).since = u.tally ∧ (v.group g).theirs = groups.toNat ∧
        (v.group g).lost = false ∧ Accepted u v g ∧ MemSame u v 0 0 ∧
        (u.roomFor 1 → noticeCell u.clk.blkNum 0xB0 0 0 u.tally [BitVec.ofNat 64 (g + peer.toNat * 8)] ∈ v.lnd.nq) ∧
        (∀ n, x.swapped = some n → u.roomFor 2 →
          noticeCell u.clk.blkNum 0xB2 0 0 u.tally [BitVec.ofNat 64 (n + g * 8)] ∈ v.lnd.nq)) ∧
      (x.phase = .up → ∀ n : Fin 8, n.val / (8 >>> u.fry.groups) = g → u.unitFenced 6 n = false →
        Completes (exec (.ferryLinkPacket t group p ⟨peer, groups⟩ credits (some n)) s) fun v => v.unitFenced 6 n = true ∧
          (u.freeSpare 6 = some 8 → v.fry.spareUsed = true ∧ v.fry.spareFor = n.val ∧
            (v.group g).phase = .train 1 ∧ (v.group g).since = u.tally) ∧
          (u.freeSpare 6 = none → (v.group g).phase = .down) ∧ othersUp u v ∧ v.man = u.man ∧ MemSame u v 0 0)) ∧
    (∀ (u : State) (p : PktHdr), u = s.upTo t 0 → u.running = true → u.fry.en = true → (u.group g).phase = .up → u.calm g →
      let x := u.group g
      (pktSound p = true → Completes (exec (.beat t group p) s) fun v => OnlyFerry u v ∧ othersUp u v ∧
        v.group g = { x with lastGood := some u.tally, link := x.link + p.cred.toNat, retry := unacked x p.ack.toNat }) ∧
      (pktSound p = false → 0 < x.link → Completes (exec (.beat t group p) s) fun v => OnlyFerry u v ∧ othersUp u v ∧
        (v.group g).lastGood = x.lastGood ∧ SentLast u v g ⟨6, 0, 0, .none, false⟩)) ∧
    (∀ (u : State), u = s.upTo t (kSub 13) → u.running = true →
      let x := u.group g
      (x.phase = .up → x.beatAt + 24000 ≤ u.tally → Completes (exec (.beatSend t group) s) fun v => OnlyFerry u v ∧ othersUp u v ∧
        v.group g = { x with beatAt := x.beatAt + 24000, freed := x.freed - min x.freed 1023 } ∧
        SentLast u v g ⟨8, 0, 0, .none, false⟩) ∧
      (x.phase = .up → u.tally < x.beatAt + 24000 → exec (.beatSend t group) s = .next u) ∧
      (∀ q, u.fry.en = true → x.lastGood = some q →
        (u.tally < q + 2400000 → exec (.peerLost t group) s = .next u) ∧
        (q + 2400000 ≤ u.tally → Completes (exec (.peerLost t group) s) fun v => v.group g = { x with lastGood := none, lost := true } ∧
          othersUp u v ∧ v.man = u.man ∧ MemSame u v 0 0 ∧
          (u.roomFor 1 → noticeCell u.clk.blkNum 0xB3 0 0 (q + 2400000) [BitVec.ofNat 64 (g + x.peer * 8)] ∈ v.lnd.nq))))

/-- R301, R305: a packet with a bad CRC or an uncorrectable codeword is answered by the link-level NAK, one received already is discarded, and neither has
an effect of its own, one that leaves a gap is answered by the NAK too; a NAK of LEN 0 sends again what follows it, with the CRED it had. R307: OFFERs wait, at most 64; STATE adds its payload; STATE_END ends
it and, for a MIGRATE_IN, is answered by ACK exactly where the state fits the request and its length and CRC hold, else by NAK with the
reason 02 of a bad CRC or length, 01 of all else (a
placement that fails its check: log entry 81); ACK and NAK reach the sender's entry; limits, half open (00 R3). R308: MIRROR writes its slot.
Choices of this model on which it rests: log entries 17, 44, 45, 46 and 81. -/
def Obligations.FerryTransfers : Prop :=
  ∀ (t : Stamp) (group : Fin 8) (s : State),
    let g := group.val
    let othersUp := fun (u v : State) => ∀ k, k ≠ g → v.group k = u.group k
    (∀ (u : State) (p : PktHdr) (xfer : BitVec 16), u = s.upTo t 0 → u.running = true → u.fry.en = true → (u.group g).phase = .up →
      u.calm g →
      let x := u.group g
      (∀ (dom : BitVec 8) (src : Handle) (epoch off idx last : BitVec 16) (h bytes crc : BitVec 32) (payload : List Byte)
          (len reason : BitVec 8) (i : Instr),
        i ∈ [Instr.offer t group p xfer dom src epoch h bytes, .state t group p xfer payload, .stateEnd t group p xfer crc,
          .ack t group p xfer, .nak t group p xfer len reason last, .mirror t group p idx off payload] →
        (pktSound p = false → 0 < x.link → Completes (exec i s) fun v => OnlyFerry u v ∧ othersUp u v ∧
          v.fry.offers = u.fry.offers ∧ (v.group g).rxSeq = x.rxSeq ∧ (v.group g).lastGood = x.lastGood ∧
          SentLast u v g ⟨6, 0, 0, .none, false⟩) ∧
        (pktSound p = true → 32768 ≤ (p.seq.toNat + 65536 - x.rxSeq) % 65536 → Completes (exec i s) fun v => OnlyFerry u v ∧ othersUp u v ∧
          v.fry.offers = u.fry.offers ∧ v.group g = { x with lastGood := some u.tally }) ∧
        (pktSound p = true → 0 < (p.seq.toNat + 65536 - x.rxSeq) % 65536 → (p.seq.toNat + 65536 - x.rxSeq) % 65536 < 32768 → 0 < x.link →
          Completes (exec i s) fun v => OnlyFerry u v ∧ othersUp u v ∧ v.fry.offers = u.fry.offers ∧ (v.group g).rxSeq = x.rxSeq ∧
            (v.group g).lastGood = some u.tally ∧ SentLast u v g ⟨6, 0, 0, .none, false⟩)) ∧
      (u.inOrder g p →
        (∀ (dom : BitVec 8) (src : Handle) (epoch : BitVec 16) (h bytes : BitVec 32),
          (∀ q, q ∈ u.fry.offers → ¬ (q.group = g ∧ q.xfer = xfer.toNat)) → u.waiting.length < 64 →
          Completes (exec (.offer t group p xfer dom src epoch h bytes) s) fun v => OnlyFerry u v ∧ othersUp u v ∧ Accepted u v g ∧
            v.fry.offers = u.fry.offers ++ [⟨g, xfer.toNat, dom.toNat, src, epoch.toNat, h.toNat, bytes.toNat, u.tally, [], false, 0⟩]) ∧
        (∀ (payload : List Byte), Completes (exec (.state t group p xfer payload) s) fun v => OnlyFerry u v ∧ othersUp u v ∧
          Accepted u v g ∧ v.fry.offers = u.fry.offers.map fun o =>
            if o.group = g ∧ o.xfer = xfer.toNat ∧ o.done = false then { o with got := o.got ++ payload.take 240 } else o) ∧
        (∀ (crc : BitVec 32) (o : Offer), u.fry.offers = [o] → o.group = g → o.xfer = xfer.toNat → o.done = false →
          (u.waiterOf o = none ∨ u.mem.en = false →
            Completes (exec (.stateEnd t group p xfer crc) s) fun v => OnlyFerry u v ∧ othersUp u v ∧
              Accepted u v g ∧ v.fry.offers = [{ o with done := true, crc := crc }]) ∧
          (∀ i b, u.waiterOf o = some i → u.mem.en = true → (u.entry i).req.build = some b →
            Completes (exec (.stateEnd t group p xfer crc) s) fun v =>
              v.fry.offers = [] ∧ OthersStand u v i ∧ ∀ b', (v.entry i).req.build = some b' →
                (b'.arrived = true → b.arrived = false → o.dom = (u.entry i).dom ∧ o.epoch = (u.entry i).epoch ∧ o.h = b.h ∧
                  crc32c o.got = crc ∧ o.got.length = o.bytes) ∧ (b'.arrived = false → b'.refused = true)) ∧
          (∀ i b r, u.waiterOf o = some i → u.mem.en = true → (u.entry i).req.build = some b → u.ctlPage i = some r → 0 < x.link →
            let placed := u.placeState i u.tally (u.recvSegs i o) o.got
            let fits := placed.2 = true ∧ (placed.1.readCopy (copyAddr r.page false)).committed = b.h ∧ o.dom = (u.entry i).dom ∧
              o.epoch = (u.entry i).epoch ∧ o.h = b.h ∧ segBytes (u.recvSegs i o) + copySize = o.bytes
            let sound := crc32c o.got = crc ∧ o.got.length = o.bytes
            (fits → sound → Completes (exec (.stateEnd t group p xfer crc) s) fun v =>
              (v.entry i).req.build = some { b with arrived := true } ∧ Replied u v g ⟨5, o.dom, xfer.toNat, .none, false⟩) ∧
            (fits → ¬ sound → Completes (exec (.stateEnd t group p xfer crc) s) fun v =>
              (v.entry i).req.build = some { b with refused := true } ∧ Replied u v g ⟨6, o.dom, xfer.toNat, .reason 2, false⟩) ∧
            (placed.2 = true → ¬ fits → Completes (exec (.stateEnd t group p xfer crc) s) fun v =>
              (v.entry i).req.build = some { b with refused := true } ∧ Replied u v g ⟨6, o.dom, xfer.toNat, .reason 1, false⟩))) ∧
        (∀ i m, u.sender g xfer.toNat = some (i, m) →
          (Completes (exec (.ack t group p xfer) s) fun v => (v.entry i).req.mig = some { m with acked := true } ∧
            (v.entry i).state = (u.entry i).state ∧ OthersStand u v i ∧ v.lnd = u.lnd ∧ MemSame u v 0 0) ∧
          (∀ (len reason : BitVec 8) (last : BitVec 16) (o : OpenCmd), len ≠ 0 → u.OpenIs m.cmd o → (u.entry i).req.build = none →
            Completes (exec (.nak t group p xfer len reason last) s) fun v => v.man = u.man ∧ MemSame u v 0 0 ∧
              Closed u v o (if reason = 0x01 ∨ reason = 0x02 then 0x0C else 0x0D) [] ∧
              (u.roomFor 1 → u.building (u.handleOf i) = none → noticeCell u.clk.blkNum 0xB4 (u.entry i).dom (u.handleOf i) u.tally
                [BitVec.ofNat 64 (g + m.xfer.getD 0 * 2 ^ 16)] ∈ v.lnd.nq))) ∧
        (∀ (reason : BitVec 8) (last : BitVec 16), u.fry.sent = [] → x.retry.length ≤ 512 →
          Completes (exec (.nak t group p xfer 0 reason last) s) fun v => OnlyFerry u v ∧
            let again := (unacked x p.ack.toNat).filter fun q => decide (0 < (q.seq + 65536 - last.toNat) % 65536) &&
              decide ((q.seq + 65536 - last.toNat) % 65536 < 32768)
            v.fry.sent = (again.map fun q => ⟨g, u.tally, q.seq, q.cred, ((v.group g).rxSeq + 65535) % 65536, q.pkt⟩) ∧
              v.fry.repeated = (u.fry.repeated + again.length) % 2 ^ 32 ∧ (v.group g).retry = unacked x p.ack.toNat) ∧
        (∀ (idx off : BitVec 16) (payload : List Byte),
          let a := u.fry.mirbase + idx.toNat * 65536 + off.toNat
          let bs := payload.take 240
          (u.ownedWr 0 a bs.length = true → u.mem.en = true → u.MemSound → Completes (exec (.mirror t group p idx off payload) s) fun v =>
            v.rd a bs.length = bs ∧ MemSame u v a bs.length ∧ v.man = u.man ∧ Accepted u v g) ∧
          (u.ownedWr 0 a bs.length = false → u.mem.en = true → Completes (exec (.mirror t group p idx off payload) s) fun v =>
            MemSame u v 0 0 ∧ v.man = u.man ∧ v.mem.viol = (u.mem.viol + 1) % 2 ^ 32 ∧ fld v.wch.lastd 0 8 = 0x0E)))) ∧
    (∀ (u : State), u = s.upTo t (kSub 13) → u.running = true →
      let x := u.group g
      (∀ (xfer : BitVec 16) (o : Offer), o ∈ u.waiting → o.group = g → o.xfer = xfer.toNat →
        (∀ y, y ∈ u.fry.offers → y.group = g → y.xfer = xfer.toNat → y = o) →
        (u.tally < o.stamp + 2400 * u.man.migto → exec (.offerTimeout t group xfer) s = .next u) ∧
        (o.stamp + 2400 * u.man.migto ≤ u.tally → x.backlog.length < 511 → Completes (exec (.offerTimeout t group xfer) s) fun v =>
          OnlyFerry u v ∧ v.fry.offers = u.fry.offers.filter (fun y => decide (y ≠ o)) ∧
          (x.phase = .up → x.backlog = [] → x.feed = [] → 0 < x.link →
            SentLast u v g ⟨6, o.dom, xfer.toNat, .reason 0x03, false⟩))) ∧
      (∀ (idx : BitVec 16) m n o, (u.entry idx.toNat).req.mig = some m → (u.entry idx.toNat).state = .migOut → m.xfer = some n →
        m.acked = false → u.OpenIs m.cmd o → (u.entry idx.toNat).req.build = none →
        (u.tally < m.offer + 4800 * m.limit → exec (.xferTimeout t idx) s = .next u) ∧
        (m.offer + 4800 * m.limit ≤ u.tally → Completes (exec (.xferTimeout t idx) s) fun v => v.man = u.man ∧ MemSame u v 0 0 ∧
          Closed u v o 0x0D [])))

/-! ### Clocks, resets, test access -/

/-- Every register stands at its reset value and every valid bit is cleared; only the tally, the clock registers, node memory, the numbers of
the regions' generations, the NVM device and what stands outside the block are their own (R312, R347). -/
def Sys2Proof.Machine.AsReset (v : State) : Prop :=
  { State.reset with
    tally := v.tally, pending := v.pending, fresh := v.fresh, clk := v.clk
    mem := { MemSide.init with bytes := v.mem.bytes, pois := v.mem.pois, rgns := v.mem.rgns }
    log := { Logbook.init with dev := v.log.dev, ckpts := v.log.ckpts } } = v ∧
  ∀ k, (v.region k).v = false

/-- What no reset touches: node memory and the waiting commands. -/
def Sys2Proof.Machine.OutsideStands (u v : State) : Prop := MemSame u v 0 0 ∧ v.pending = u.pending ∧ v.clk.blkNum = u.clk.blkNum

/-- The one physical unit of a kind that BIST found failing. -/
def Sys2Proof.Machine.onlyBad (bad : Nat → Bool) (n m : Nat) : Prop := ∀ k, k < n → (bad k = true ↔ k = m)

/-- R285, R286, R346, R347: a POWER, BLOCK or PIN reset, and the strap, put every register at its reset value with the boundary idle; node memory stands, and
the region generations but for POWER; while the block has no supply only the levels of RST_N and PG_ARRAY are seen. R281, R349: an ARRAY reset clears
the valid bits and the enables, keeps fences, records in coalescing and staging, and the tally; RST_N that rises while PG_ARRAY is low leads into its
state. R350: SOFT with the key clears them too, its coalescing closed; at the end of its Logbook step the registers but the clock's are reset,
with the fences kept. R343, R344: the tally starts at 0, takes GT_VAL once, and is only compared after. R341: lost lock fails a block in service. R351:
BIST fences exactly the failing units and swaps in spares; the test that WX_MBIST starts changes nothing but its findings (DESIGN CHOICE, log entry 102). R283,
R284: the wrapper and the boundary-scan segment.
Choices of this model on which it rests: log entries 25, 61, 62, 87 and 102. -/
def Obligations.ResetsAndClocks : Prop :=
  ∀ (t : Stamp) (s : State),
    let unlisted := fun (u v : State) => u.wch.staging = [] → (∀ n, u.log.op ≠ .all n) → v.log.dev = u.log.dev
    (∀ (u : State), u = s.upTo t 0 →
      (u.clk.absent = false → u.clk.pgLogic = false → Completes (exec (.powerUp t) s) fun v => AsReset v ∧ OutsideStands u v ∧ v.tally = 0 ∧
        v.clk.wrapper = .bypass ∧ v.clk.pgLogic = true ∧ v.clk.lock = false ∧ v.clk.talign = false ∧ v.clk.kind = 0 ∧ v.alive = false ∧
        v.clk.phase = (if u.clk.rstN = true ∧ u.clk.pgArray = false then .arrayReset else .reset) ∧
        (∀ k, v.region k = Region.none) ∧ v.log.dev = u.log.dev) ∧
      (u.clk.absent = false → u.clk.pgLogic = true → Completes (exec (.powerDown t) s) fun v => AsReset v ∧ OutsideStands u v ∧
        v.clk.pgLogic = false ∧ v.clk.lock = false ∧ v.alive = false ∧ unlisted u v) ∧
      (∀ strap : Bool, (strap = u.clk.absent → exec (.absent t strap) s = .next u) ∧
        (strap = true → u.clk.absent = false → Completes (exec (.absent t strap) s) fun v => AsReset v ∧ OutsideStands u v ∧
          v.clk.absent = true ∧ v.alive = false) ∧
        (strap = false → u.clk.absent = true → Completes (exec (.absent t strap) s) fun v =>
          v = { u with clk := { u.clk with absent := false } })) ∧
      (u.clk.absent = false →
        (u.clk.rstN = true → u.clk.pgLogic = true → Completes (exec (.pinReset t) s) fun v => AsReset v ∧ OutsideStands u v ∧ v.tally = 0 ∧
          v.clk.phase = .reset ∧ v.clk.rstN = false ∧ v.clk.lock = u.clk.lock ∧ v.clk.talign = false ∧ v.clk.kind = min u.clk.kind 3 ∧
          v.alive = false ∧ (∀ k, (v.region k).gen = (u.region k).gen) ∧ unlisted u v) ∧
        (u.clk.rstN = true → u.clk.pgLogic = false → Completes (exec (.pinReset t) s) fun v =>
          v = { u with clk := { u.clk with rstN := false } }) ∧
        (∀ b : BitVec 6, u.clk.rstN = false → u.clk.pgLogic = false → Completes (exec (.rstNRelease t b) s) fun v =>
          v = { u with clk := { u.clk with rstN := true } }) ∧
        (u.clk.pgArray = true → u.clk.pgLogic = false ∨ u.arrayFalls = false →
          Completes (exec (.arrayReset t) s) fun v => v = { u with clk := { u.clk with pgArray := false } }) ∧
        (u.clk.pgArray = false → u.clk.pgLogic = false ∨ u.clk.phase ≠ .arrayReset → Completes (exec (.pgArrayRise t) s) fun v =>
          v = { u with clk := { u.clk with pgArray := true } })) ∧
      (u.clk.absent = false → u.clk.pgLogic = true →
        (∀ b : BitVec 6, u.clk.rstN = false → Completes (exec (.rstNRelease t b) s) fun v => { v with clk := u.clk } = u ∧
          v.clk.rstN = true ∧ v.clk.blkNum = b.toNat ∧
          v.clk.phase = (if u.clk.phase ≠ .reset then u.clk.phase else if u.clk.pgArray = false then .arrayReset
            else if u.clk.lock then .bist else .reset)) ∧
        (u.clk.lock = false → Completes (exec (.pllLock t) s) fun v => v.clk.lock = true ∧ v.tally = (if u.clk.talign then u.tally else 0) ∧
          v.clk.phase = (if u.clk.phase ≠ .reset ∨ u.clk.rstN = false then u.clk.phase else if u.clk.pgArray then .bist else .arrayReset) ∧
          v.man = u.man ∧ MemSame u v 0 0) ∧
        (u.clk.lock = true → u.running = true → Completes (exec (.pllLockLoss t) s) fun v => v.clk.phase = .failing ∧ v.clk.lock = false ∧
          v.pins = Pins.idle ∧ fld v.wch.lastd 0 8 = 0x12 ∧ ∃ r q, v.wch.staging = r :: q ∧ r.typ = 0x0B ∧ r.cls = 0x12) ∧
        (u.clk.lock = true → u.running = false → Completes (exec (.pllLockLoss t) s) fun v =>
          v = { u with clk := { u.clk with lock := false } }) ∧
        (∀ val : Word, u.clk.lock = true →
          (val.toNat % 24 ≠ 0 → Completes (exec (.gtStrobe t val) s) fun v => { v with clk := u.clk, cnt := u.cnt } = u ∧
            v.clk = { u.clk with badStb := min 65535 (u.clk.badStb + 1) }) ∧
          (val.toNat % 24 = 0 → u.clk.talign = false → Completes (exec (.gtStrobe t val) s) fun v => v.tally = val.toNat ∧
            v.clk = { u.clk with talign := true, gtlast := val } ∧ { v with tally := u.tally, clk := u.clk, cnt := u.cnt, lag := u.lag } = u) ∧
          (val.toNat % 24 = 0 → u.clk.talign = true → val.toNat = u.tally → Completes (exec (.gtStrobe t val) s) fun v =>
            v.clk = { u.clk with gtlast := val } ∧ { v with clk := u.clk, cnt := u.cnt } = u) ∧
          (val.toNat % 24 = 0 → u.clk.talign = true → val.toNat ≠ u.tally → Completes (exec (.gtStrobe t val) s) fun v =>
            v.tally = u.tally ∧ v.clk.gterr = true ∧ v.clk.gtMis = min 65535 (u.clk.gtMis + 1) ∧ v.man = u.man ∧ MemSame u v 0 0 ∧
            (-(2 ^ 31 : Int) ≤ (val.toNat : Int) - u.tally → (val.toNat : Int) - u.tally < 2 ^ 31 →
              v.clk.gtD.toInt = (val.toNat : Int) - u.tally) ∧
            (u.alive = true → ∃ e, e ∈ v.pins.irq ∧ u.tally ≤ e ∧ e < u.tally + 3 ∧ e % 3 = 0))) ∧
        (∀ w : WrapperUpdate, Completes (exec (.wrapperInstructionUpdate t w) s) fun v => { v with clk := u.clk } = u ∧
          v.alive = (u.running && decide (v.clk.wrapper = .bypass)) ∧
          (w.wrstnLow = true → v.clk.wrapper = .bypass ∧ v.clk.mbist = false) ∧
          (w.wrstnLow = false → v.clk.wrapper = w.ins ∧ v.clk.wcells = w.cells ∧ v.clk.winputs = w.inputs ∧
            (w.ins = .mbist → u.clk.wrapper ≠ .mbist → v.clk.mbist = true)) ∧
          { v.clk with
            wrapper := u.clk.wrapper, wcells := u.clk.wcells, winputs := u.clk.winputs, wser := u.clk.wser, wshift := u.clk.wshift
            mbist := u.clk.mbist } = u.clk)) ∧
      (∀ b : BsUpdate, (u.powered = false → Completes (exec (.bsMode t b) s) fun v =>
          v = { u with clk := { u.clk with bsMode := b.high } }) ∧
        Completes (exec (.bsMode t b) s) fun v =>
          v = { u with clk := { u.clk with bsMode := b.high, bsCells := v.clk.bsCells, bsShift := v.clk.bsShift } }) ∧
      (∀ data : Word, u.alive = true → u.portFree = true →
        (bitAt data 8 = false → exec (.softReset t data) s = .next (u.respond 0)) ∧
        (bitAt data 8 = true → fld data 0 8 ≠ 0xA5 → exec (.softReset t data) s = .next ((u.count 0 0x02 1).respond 0)) ∧
        (bitAt data 8 = true → fld data 0 8 = 0xA5 → Completes (exec (.softReset t data) s) fun v => v.clk.phase = .softLog ∧
          v.alive = false ∧ v.pins = Pins.idle ∧ v.tally = u.tally ∧ (∀ k, v.entry k = Entry.init 1) ∧ (∀ k, v.job k = none) ∧
          v.lnd.nq = [] ∧ v.lnd.cq = [] ∧ v.wch.coal = [] ∧ (u.wch.coal = [] → v.wch.staging = u.wch.staging) ∧
          v.clk.kind = min u.clk.kind 4 ∧ (∀ k, (v.region k).v = false ∧ (v.region k).gen = (u.region k).gen) ∧ v.log.op = u.log.op ∧
          v.log.dev = u.log.dev ∧ OutsideStands u v)) ∧
      (u.powered = true → u.clk.pgArray = true → u.clk.rstN = true → u.clk.phase ∈ [Phase.service, Phase.bist, Phase.softLog, Phase.reset] →
        Completes (exec (.arrayReset t) s) fun v => v.alive = false ∧
        v.clk.phase = .arrayReset ∧ v.clk.pgArray = false ∧ v.clk.arrayLost = true ∧ v.clk.kind = min u.clk.kind 2 ∧ v.tally = u.tally ∧
        (∀ k, v.entry k = Entry.init 1) ∧ (∀ k, v.job k = none) ∧ v.dsp.insts = [] ∧ v.lnd.nq = [] ∧ v.lnd.cq = [] ∧ v.lnd.opens = [] ∧
        v.tok.path = [] ∧ (∀ k, (v.group k).phase = .down) ∧ v.wch.coal = u.wch.coal ∧ v.wch.staging = u.wch.staging ∧
        (∀ k n, v.unitFenced k n = u.unitFenced k n) ∧ (∀ k, (v.region k).v = false ∧ (v.region k).gen = (u.region k).gen) ∧
        v.log.en = u.log.en ∧ v.log.mounted = u.log.mounted ∧
        v.tok.en = false ∧ v.ramp.en = false ∧ v.txt.en = false ∧ v.txt.pinEn = false ∧ v.cls.en = false ∧ v.tre.en = false ∧
        v.tre.fen = false ∧ v.dsp.en = false ∧ v.lnd.en = false ∧ v.man.en = false ∧ v.mem.en = false ∧ v.fry.en = false ∧
        OutsideStands u v) ∧
      (u.powered = true → u.clk.pgArray = false → u.clk.phase = .arrayReset → Completes (exec (.pgArrayRise t) s) fun v =>
        v.clk.pgArray = true ∧ v.clk.phase = .softLog ∧ v.clk.bistAfter = u.clk.arrayLost ∧ v.wch.coal = [] ∧ v.alive = false ∧
        OutsideStands u v)) ∧
    (∀ (u : State), u = s.upTo t (kSub 14) → u.powered = true →
      (u.clk.phase = .softLog → u.softWritten = false ∨ u.watchRuns = false → exec (.softResetEnd t) s = .next u) ∧
      (u.clk.phase = .softLog → u.softWritten = true → u.watchRuns = true → Completes (exec (.softResetEnd t) s) fun v =>
        AsReset (v.withFences State.reset) ∧ v.withFences u = v ∧ OutsideStands u v ∧ v.tally = u.tally ∧
        v.clk.talign = u.clk.talign ∧ v.clk.phase = (if u.clk.bistAfter then .bist else .service) ∧
        ((∀ n, u.log.op ≠ .all n) → v.log.dev = u.log.dev)) ∧
      (∀ (lanes : BitVec 9) (cores : BitVec 18) (tiles : BitVec 34) (engines : BitVec 9) (fst : BitVec 2) (text : BitVec 22) (others : BitVec 8),
        (u.clk.phase ≠ .bist → u.clk.lock = true → Completes (exec (.bistDone t lanes cores tiles engines fst text others) s) fun v =>
          { v with clk := u.clk } = u ∧ { v.clk with mbist := u.clk.mbist, mbistBad := u.clk.mbistBad } = u.clk ∧ v.clk.mbist = false) ∧
        (u.clk.phase = .bist → u.clk.lock = true →
        Completes (exec (.bistDone t lanes cores tiles engines fst text others) s) fun v =>
          v.clk.phase = .service ∧ v.clk.bistDone = true ∧ (v.clk.fatal = true ↔ others ≠ 0) ∧ v.clk.arrayLost = false ∧
          (∀ n, n < 9 → (v.unitFenced 0 n = true ↔ bitAt lanes n = true)) ∧ (∀ n, n < 34 → (v.unitFenced 1 n = true ↔ bitAt tiles n = true)) ∧
          (∀ n, n < 9 → (v.unitFenced 2 n = true ↔ bitAt engines n = true)) ∧ (∀ n, n < 2 → (v.unitFenced 3 n = true ↔ bitAt fst n = true)) ∧
          (∀ n, n < 22 → (v.unitFenced 4 n = true ↔ bitAt text n = true)) ∧ (∀ n, n < 18 → (v.unitFenced 5 n = true ↔ bitAt cores n = true)) ∧
          (∀ m, m < 8 → onlyBad (bitAt lanes) 9 m → v.tok.spareUsed = true ∧ v.tok.spareFor = m) ∧
          (∀ m, m < 32 → onlyBad (bitAt tiles) 34 m → v.cls.sp32 = some m ∧ v.cls.sp33 = none) ∧
          (∀ m, m < 8 → onlyBad (bitAt engines) 9 m → v.tre.spare = some m) ∧
          (∀ m, m < 16 → onlyBad (bitAt cores) 18 m → v.pil.sp16 = some m ∧ v.pil.sp17 = none) ∧ v.man = u.man ∧ OutsideStands u v)))

/-- R264–R268, R270–R272, R274, R280, R283–R286: the values at the boundary. Power loss, the strap and a PIN reset force every output to zero, and without
the logic supply nobody drives the NVM pins; a wrapper instruction other than WS_BYPASS drives every output from its cell and holds what its input cells take, and BS_MODE the NVM pins; the serial outputs deliver what their register captured and
then what was shifted in, WSO in a shift state alone, and BS_SO follows BS_SI without power; the
port clocks run from lock on. A data bus is zero in a cycle whose VALID is low. A register access is answered twelve edges after it, a write with
zero; while the port is taken CN_READY is low.
Choices of this model on which it rests: log entry 87. -/
def Obligations.BoundaryDriven : Prop :=
  ∀ (t : Stamp) (s : State),
    (∀ (v : State) (e : Stamp) (n : Fin 8) (p : Fin 16), v.clk.wrapper = .bypass →
      (v.out e (.moValid n) = 0 → v.out e (.moData n) = 0) ∧
      (v.out e (.mrsValid n) = 0 → v.out e (.mrsData n) = 0 ∧ v.out e (.mrsOk n) = 0) ∧
      (v.out e (.toValid n) = 0 → v.out e (.toData n) = 0) ∧ (v.out e .voValid = 0 → v.out e .voData = 0) ∧
      (v.out e (.mqValid p) = 0 → ∀ x, x ∈ [OutSig.mqWrite p, .mqAddr p, .mqTag p, .mqWdata p, .mqBe p, .mqWpois p] → v.out e x = 0) ∧
      (v.out e .cnRvalid = 0 → v.out e .cnRdata = 0)) ∧
    (∀ (u : State), u = s.upTo t 0 →
      (u.clk.absent = false → u.clk.pgLogic = true →
        (Completes (exec (.powerDown t) s) fun v => v.clocksRun = false ∧ v.nvmPins = .highZ ∧ ∀ e x, v.out e x = 0) ∧
        (Completes (exec (.absent t true) s) fun v => v.clocksRun = false ∧ v.nvmPins = .highZ ∧ ∀ e x, v.out e x = 0) ∧
        (u.clk.rstN = true → Completes (exec (.pinReset t) s) fun v => v.clocksRun = u.clk.lock ∧ ∀ e x, v.out e x = 0) ∧
        (u.clk.lock = false → Completes (exec (.pllLock t) s) fun v => v.clocksRun = true) ∧
        (∀ w : WrapperUpdate, w.wrstnLow = false →
          (u.clk.rstN = true → u.clk.phase = .service → w.ins ≠ .bypass →
            Completes (exec (.wrapperInstructionUpdate t w) s) fun v => v.aliveHigh = false ∧
              (∀ e x n, (w.cells.find? fun c => decide (c.1 = x)) = some (x, n) → v.out e x = n % 2 ^ sigWidth x) ∧
              ∀ x n, (w.inputs.find? fun c => decide (c.1 = x)) = some (x, n) → v.inCell x = n % 2 ^ inWidth x) ∧
          (∀ bits xs, bits ≠ [] → w.shifting = true → w.steps = SerStep.capture bits :: xs.map SerStep.shift →
            Completes (exec (.wrapperInstructionUpdate t w) s) fun v => v.wso = (bits ++ xs).getD xs.length false) ∧
          (w.shifting = false → Completes (exec (.wrapperInstructionUpdate t w) s) fun v => v.wso = false)) ∧
        (∀ (high : Bool) (p : BitVec 12) (xs : List Bool),
          (Completes (exec (.bsMode t ⟨high, .capture p :: xs.map .shift⟩) s) fun v =>
            ∀ si, v.bsSo si = (((List.range 12).map fun k => p.getLsbD k) ++ xs).getD xs.length false) ∧
          (xs.length = 12 → Completes (exec (.bsMode t ⟨true, xs.map BsStep.shift ++ [.update]⟩) s) fun v =>
            ∃ c : BitVec 12, v.nvmPins = .cells c ∧ ∀ k, k < 12 → xs[k]? = some (c.getLsbD k)))) ∧
      (∀ si, u.powered = false → u.bsSo si = si ∧ u.wso = false) ∧
      (u.alive = true → u.clk.rstN = true →
        (∀ (o : BitVec 17) (w : Word), u.portFree = true → (u.writeReg (8 * o.toNat) w).clk = u.clk →
          Completes (exec (.regWrite t o w) s) fun v => v.out (u.tally + 12) .cnRvalid = 1 ∧ v.out (u.tally + 12) .cnRdata = 0) ∧
        (∀ (lane : Fin 8) (id : BitVec 16) (gen : BitVec 8) (line : BitVec 9), drivenAt (u.tally + 4) (Tab.getD u.pins.maskRsp lane []) = none →
          Completes (exec (.maskRead t lane id gen line) s) fun v => v.out (u.tally + 4) (.mrsValid lane) = 1) ∧
        (∀ (port : Fin 16) q r, (u.port port).waitq = q :: r → u.mem.en = true → (u.port port).out.length < 256 → u.reqOk q = true →
          (u.port port).shown = none → u.func u.tally (.mqValid port) = 1 ∧ u.func u.tally (.mqAddr port) = q.line / 128 % 2 ^ 33 ∧
            (q.write = false → u.func u.tally (.mqWdata port) = 0))) ∧
      (u.alive = true → u.clk.rstN = true → u.portFree = false → drivenAt (u.tally + 12) u.pins.cnData = none → u.tally % 3 = 0 → u.out u.tally .cnReady = 0))

/-! ### Registers -/

/-- Registers that only hold what is written: what one reads back, when a write is accepted, and the bank that counts a refused
write. -/
def Sys2Proof.Machine.plainReg (u : State) (o : Nat) (w : Word) : Option (Word × Prop × Nat) :=
  match o with
  | 0x2018 => some (w &&& 0x3FF, 1 ≤ fld w 0 10 ∧ fld w 0 10 ≤ 511, 1)
  | 0x2028 => some (w &&& 0xFFF, 1 ≤ fld w 0 12 ∧ fld w 0 12 ≤ 2047, 1)
  | 0x3010 => some (w &&& 0xFFFF, True, 2)
  | 0x4010 => some (w &&& 0xFFFFFFFFFF, u.dsp.en = false ∧ fld w 0 27 = 0, 4)
  | 0x4020 => some (w &&& 0xFFFF, fld w 0 16 ≠ 0, 4)
  | 0x4028 => some (w &&& 0xFFF, True, 4)
  | 0x6018 => some (w &&& 0xFFFFFFFFFF, fld w 0 15 = 0, 6)
  | 0x7018 => some (w &&& 0xFFFFFFFFFF, u.txt.en = false ∧ fld w 0 27 = 0, 7)
  | 0x8018 => some (w &&& 0xFFFF, fld w 0 16 ≤ 32768, 8)
  | 0x9020 => some (w &&& 0x3FFF, fld w 0 14 ≤ 8192, 10)
  | 0xA008 => some (w &&& 0x1FFFFF, True, 11)
  | 0xB010 => some (w &&& 0x3FF, True, 12)
  | 0xC018 => some (w &&& 0x3FFFFFFF, True, 13)
  | 0xC020 => some (w &&& 0xFFFFFFFFFF, fld w 0 32 = 0, 13)
  | 0xD000 => some (w &&& 0x3, True, 14)
  | 0xD008 => some (w &&& 0x1FFFFF, 1000 ≤ fld w 0 21 ∧ fld w 0 21 ≤ 2000000, 14)
  | 0xD018 => some (w &&& 0xFFFFFFFFFF, fld w 0 26 = 0 ∧ ∀ x, x ∈ u.epochs → x.2.2.live = false, 14)
  | _ => none

/-- Control registers of enables: what one reads back, and whether a write would set an enable of R345. -/
def Sys2Proof.Machine.enableReg (u : State) (o : Nat) (w : Word) : Option (Word × Prop) :=
  match o with
  | 0x2000 => some (w &&& 0xF, u.lnd.en = false ∧ bitAt w 0 = true)
  | 0x4000 => some (w &&& 0x1, u.dsp.en = false ∧ bitAt w 0 = true)
  | 0x6000 => some (w &&& 0x7, u.tok.en = false ∧ bitAt w 0 = true)
  | 0x7000 => some (w &&& 0x3, (u.txt.en = false ∧ bitAt w 0 = true) ∨ (u.txt.pinEn = false ∧ bitAt w 1 = true))
  | 0x8000 => some (w &&& 0x1, u.cls.en = false ∧ bitAt w 0 = true)
  | 0x9000 => some (w &&& 0x7, (u.tre.en = false ∧ bitAt w 0 = true) ∨ (u.tre.fen = false ∧ bitAt w 1 = true))
  | 0xA000 => some (w &&& 0x3, u.ramp.en = false ∧ bitAt w 0 = true)
  | _ => none

/-- Read-only registers and the bank in which a write of one counts (R358, R359). -/
def Sys2Proof.Machine.readOnlyRegs : List (Nat × Nat) :=
  [(0x0000, 0), (0x0008, 0), (0x0040, 0), (0x1000, 0), (0x1008, 0), (0x1010, 0), (0x1018, 0), (0x1028, 0), (0x1030, 0), (0x2008, 1),
    (0x2010, 1), (0x2020, 1), (0x2038, 1), (0x2088, 1), (0x20C0, 1), (0x20F8, 1), (0x3008, 2), (0x3040, 2), (0x3078, 2), (0x4008, 4),
    (0x4018, 4), (0x4030, 4), (0x4060, 4), (0x4078, 4), (0x5000, 5), (0x5100, 5), (0x5108, 5), (0x6008, 6), (0x6020, 6), (0x6028, 6),
    (0x6030, 6), (0x7008, 7), (0x7020, 7), (0x7028, 7), (0x7030, 7), (0x7100, 7), (0x71F8, 7), (0x8008, 8), (0x8020, 8), (0x8030, 8),
    (0x8038, 8), (0x8040, 8), (0x9008, 10), (0x9028, 10), (0x9038, 10), (0x9040, 9), (0x9048, 10), (0xA010, 11), (0xA018, 11),
    (0xA020, 11), (0xA028, 11), (0xB008, 12), (0xB028, 12), (0xB038, 12), (0xC008, 13), (0xC028, 13), (0xC030, 13), (0xC040, 13),
    (0xC078, 13), (0xD010, 14), (0xD020, 14), (0xD028, 14), (0xD030, 14), (0xD048, 14), (0xD050, 14), (0xD058, 14), (0xD060, 14),
    (0xD068, 14), (0xE000, 14), (0xE010, 14), (0xFF20, 14), (0x20000, 0), (0x2FF00, 0)]

/-- R6, R358, R359: a register that only holds what is written reads it back with its reserved fields zero, every other register reading as before;
a value out of its range is only counted, as is a write of a read-only register. R345: while the tally is not aligned, or BIST failed, a write that would set an
enable is only counted. R7: an offset without a register reads zero and counts in VY_FLT_BADREG. R360, R362: the identity and capabilities.
R155, R170: a domain's quota; a slot word of a bank that is not active. R64: VY_RAMP_CTL. R135, R154: a read of VY_MAN_DATA0 latches the
entry. R274: while the port is taken at the LCLK edge no access transfers. R246: VY_LND_FLUSH.
Choices of this model on which it rests: log entries 11, 12, 26 and 87. -/
def Obligations.RegistersReadAndWrite : Prop :=
  ∀ (t : Stamp) (s u : State) (off : BitVec 17) (w : Word), u = s.upTo t 0 → u.alive = true →
    (u.portFree = false → exec (.regWrite t off w) s = .next u ∧ ∀ wr, exec (.badRegAccess t wr off w) s = .next u) ∧
    (u.portFree = true →
    let o := 8 * off.toNat
    let others := fun (v : State) => v.man.entries = u.man.entries ∧ v.pil = u.pil ∧ v.lnd.cq = u.lnd.cq ∧ v.lnd.nq = u.lnd.nq ∧
      v.lnd.opens = u.lnd.opens ∧ MemSame u v 0 0
    (∀ val ok b, plainReg u o w = some (val, ok, b) →
      (ok → Completes (exec (.regWrite t off w) s) fun v => v.readReg o = some val ∧ others v ∧ v.cnt = u.cnt ∧
        (o ≠ 0x4028 → o ≠ 0xB010 → ∀ k, k ≠ o → v.readReg k = u.readReg k)) ∧
      (¬ ok → exec (.regWrite t off w) s = .next ((u.count b 0x02 1).respond 0))) ∧
    (∀ val rise, enableReg u o w = some (val, rise) →
      (rise → u.clk.talign = false ∨ u.clk.fatal = true → exec (.regWrite t off w) s = .next ((u.count 0 0x13 1).respond 0)) ∧
      (¬ rise ∨ (u.clk.talign = true ∧ u.clk.fatal = false) → Completes (exec (.regWrite t off w) s) fun v =>
        v.readReg o = some val ∧ others v ∧ v.cnt = u.cnt ∧ (o ≠ 0xA000 → ∀ k, k ≠ o → v.readReg k = u.readReg k))) ∧
    (∀ b, (o, b) ∈ readOnlyRegs → exec (.regWrite t off w) s = .next ((u.count b 0x02 1).respond 0)) ∧
    ((0x48 ≤ o ∧ o < 0x1000) ∨ (0x14000 ≤ o ∧ o < 0x20000) ∨ 0x30000 ≤ o → ∀ wr : Bool,
      exec (.badRegAccess t wr off w) s =
          .next (({ u with wch := { u.wch with badreg := (u.wch.badreg + 1) % 2 ^ 32 } } : State).respond 0) ∧
        exec (.regWrite t off w) s = .next (({ u with wch := { u.wch with badreg := (u.wch.badreg + 1) % 2 ^ 32 } } : State).respond 0)) ∧
    (∀ val, (o, val) ∈ [(0x00, 0x00007C1100B00502#64), (0x08, 0x0010629098A09418#64), (0x10, 0x2102004002010000#64),
        (0x18, 0x8080001080100000#64), (0x20, 0x0208000100100000#64), (0x28, 0x003E840800308000#64), (0x30, 0x1080007F40032000#64),
        (0x38, 0x000007FE05100200#64), (0x40, 0x00410F8020082018#64)] →
      exec (.badRegAccess t false off w) s = .next (u.respond val)) ∧
    (∀ n, n < 256 → o = 0x20030 + 0x100 * n →
      (fld w 0 17 ≤ 65536 → Completes (exec (.regWrite t off w) s) fun v => v.domOf n = { u.domOf n with quota := fld w 0 17 } ∧
        (∀ k, k ≠ n → v.domOf k = u.domOf k) ∧ others v ∧ v.cnt = u.cnt) ∧
      (65536 < fld w 0 17 → exec (.regWrite t off w) s = .next ((u.count 2 0x02 1).respond 0))) ∧
    (∀ (c : Nat) (b : Bool) (k : Nat), c < 4 → k < 256 → o = 0x10000 + 0x1000 * c + (if b then 0x800 else 0) + 8 * k →
      ((u.ttc c).av = false ∨ (u.ttc c).active ≠ b → Completes (exec (.regWrite t off w) s) fun v =>
        (v.ttc c).word b k = BitVec.ofNat 64 (fld w 0 28) ∧ (∀ b' k', k' < 256 → (b', k') ≠ (b, k) → (v.ttc c).word b' k' = (u.ttc c).word b' k') ∧
        (∀ c', c' ≠ c → v.ttc c' = u.ttc c') ∧ others v ∧ v.cnt = u.cnt) ∧
      ((u.ttc c).av = true → (u.ttc c).active = b → exec (.regWrite t off w) s = .next ((u.count 4 0x02 1).respond 0))) ∧
    (u.clk.talign = true → u.clk.fatal = false → Completes (exec (.peakClr t w) s) fun v => v.ramp.en = bitAt w 0 ∧
      v.ramp.levelIE = bitAt w 1 ∧ v.ramp.peak = (if bitAt w 2 then u.holdUse else u.ramp.peak) ∧ v.ramp.level = u.ramp.level ∧
      v.ramp.outq = u.ramp.outq ∧ { v with
        ramp := u.ramp, lag := u.lag, lnd := { v.lnd with busyAt := u.lnd.busyAt }
        pins := { v.pins with cnData := u.pins.cnData } } = u) ∧
    (bitAt w 0 = false → bitAt w 1 = true → Completes (exec (.lndFlushNq t w) s) fun v => v.readReg 0x2030 =
        some (if v.lnd.nqFlush = none then 0 else 2) ∧ v.lnd.cq = u.lnd.cq ∧ v.man = u.man ∧ MemSame u v 0 0 ∧
      (u.lnd.nqMid = true → v.lnd.nqFlush ≠ none) ∧ (u.lnd.nqMid = false → v.lnd.nq = u.lnd.nq.filter fun c => c.gap)) ∧
    (Completes (exec (.manData0Read t) s) fun v => v.man.data = (u.entry u.man.sel).words ∧
      { v with
        man := u.man, lnd := { v.lnd with busyAt := u.lnd.busyAt }, pins := { v.pins with cnData := u.pins.cnData } } = u ∧
      { v.man with data := u.man.data } = u.man ∧
      ∃ x, drivenAt (u.tally + 12) v.pins.cnData = some x ∧ v.man.data.head? = some x ∧ v.man.data.length = 8 ∧
        (let e := u.entry u.man.sel
         e.dom < 256 → e.prio < 16 → e.outcome < 8 → e.gen < 65536 → e.epoch < 65536 →
          fld x 0 4 = e.state.code ∧ fld x 4 8 = e.dom ∧ bitAt x 12 = e.esel ∧ fld x 13 4 = e.prio ∧ fld x 21 3 = e.outcome ∧
          bitAt x 24 = e.endv ∧ fld x 32 16 = e.gen ∧ fld x 48 16 = e.epoch)))
end

