-- ==== Sys2Proof/Laws/Cache.lean ====
section
/-! SUPPORT. Cache.lean (laws): what a look-up in a cache directory can do, said once: its size stays within the capacity, a line that
was looked up in a directory with room is there under its tag, and a call's look-ups touch the directories and the counters alone. -/

namespace Sys2Proof.Machine

theorem dropLru_length_le : ∀ c : List CLine, (dropLru c).length ≤ c.length
  | [] => Nat.le_refl 0
  | l :: r => by
    unfold dropLru
    split
    · simpa using dropLru_length_le r
    · simp

/-- A directory within its capacity stays within it (05 R109, 06 R132). -/
theorem touchLine_length_le {cap owner gen : Nat} {pin : Bool} {c : List CLine} {a : Nat} (h : c.length ≤ cap) :
    (touchLine cap owner gen pin c a).length ≤ cap := by
  unfold touchLine
  dsimp only
  generalize hk : (c.filter _) = keep
  have hkeep : keep.length ≤ cap := by
    subst hk
    exact Nat.le_trans (List.length_filter_le _ _) h
  have hd := dropLru_length_le keep
  by_cases h1 : cap ≤ keep.length
  · by_cases h2 : cap ≤ (dropLru keep).length <;> simp [h1, h2] <;> omega
  · simp [h1]; omega

theorem touchLines_length_le {cap owner gen : Nat} {pin : Bool} {as : List Nat} {c : List CLine} (h : c.length ≤ cap) :
    (touchLines cap owner gen pin c as).length ≤ cap := by
  unfold touchLines
  induction as generalizing c with
  | nil => exact h
  | cons a r ih => exact ih (touchLine_length_le h)

/-- A line looked up in a directory with room is the one used latest, under the tag of its owner and image. -/
theorem touchLine_getLast {cap owner gen : Nat} {pin : Bool} {c : List CLine} {a : Nat} (h : c.length < cap) :
    ∃ p, (touchLine cap owner gen pin c a).getLast? = some ⟨a, owner, gen, p⟩ := by
  unfold touchLine
  dsimp only
  generalize hk : (c.filter _) = keep
  have hkeep : keep.length < cap := by
    subst hk
    exact Nat.lt_of_le_of_lt (List.length_filter_le _ _) h
  have h1 : ¬ keep.length ≥ cap := by omega
  simp [h1]

/-- A call's look-ups change the directories and the counters alone. -/
theorem State.lookUp_frame (s : State) (k owner gen : Nat) (as : List Nat) :
    { s.lookUp k owner gen as with cls := s.cls, tre := s.tre, cnt := s.cnt } = s := by
  unfold State.lookUp State.count
  split
  · split <;> rfl
  · split <;> split <;> rfl

end Sys2Proof.Machine
end

