-- ==== Sys2Proof/Laws/Memory.lean ====
section
/-! SUPPORT. Memory.lean: node memory. Reading a byte after a write, and the canonical form that every write keeps (log entry 4). -/

namespace Sys2Proof.Machine

theorem memWfFrom_mono {lo lo' : Nat} {m : Bytes} (h : memWfFrom lo m = true) (hl : lo' ≤ lo) : memWfFrom lo' m = true := by
  cases m with
  | nil => rfl
  | cons p r =>
    simp only [memWfFrom, Bool.and_eq_true, decide_eq_true_eq] at h ⊢
    exact ⟨⟨by omega, h.1.2⟩, h.2⟩

theorem memWfFrom_memCons {lo a : Nat} {b : Byte} {r : Bytes} (hl : lo ≤ a) (h : memWfFrom (a + 1) r = true) :
    memWfFrom lo (memCons a b r) = true := by
  unfold memCons
  split
  · exact memWfFrom_mono h (by omega)
  · rename_i hb
    simp [memWfFrom, hl, hb, h]

theorem memWfFrom_memSet {lo a : Nat} {b : Byte} {m : Bytes} (hl : lo ≤ a) (h : memWfFrom lo m = true) :
    memWfFrom lo (memSet m a b) = true := by
  induction m generalizing lo with
  | nil => exact memWfFrom_memCons hl rfl
  | cons p r ih =>
    obtain ⟨j, c⟩ := p
    simp only [memWfFrom, Bool.and_eq_true, decide_eq_true_eq] at h
    unfold memSet
    split
    · exact memWfFrom_memCons hl (by simp [memWfFrom, h]; omega)
    · split
      · rename_i e
        subst e
        exact memWfFrom_memCons hl h.2
      · simp only [memWfFrom, Bool.and_eq_true, decide_eq_true_eq]
        exact ⟨h.1, ih (by omega) h.2⟩

/-- Writing one byte keeps the canonical form. -/
theorem memWf_memSet {m : Bytes} (a : Nat) (b : Byte) (h : memWf m = true) : memWf (memSet m a b) = true :=
  memWfFrom_memSet (Nat.zero_le a) h

/-- Writing bytes keeps the canonical form. -/
theorem memWf_memWrite {m : Bytes} (a : Nat) (bs : List Byte) (h : memWf m = true) : memWf (memWrite m a bs) = true := by
  induction bs generalizing m a with
  | nil => exact h
  | cons b r ih => exact ih (a + 1) (memWf_memSet a b h)

/-- A unit's write keeps the canonical form. -/
theorem State.wr_wf {s : State} (a : Nat) (bs : List Byte) (h : memWf s.mem.bytes = true) :
    memWf (s.wr a bs).mem.bytes = true := memWf_memWrite a bs h

theorem memGet_below {lo a : Nat} {m : Bytes} (h : memWfFrom lo m = true) (ha : a < lo) : memGet m a = unlisted := by
  cases m with
  | nil => rfl
  | cons p r =>
    obtain ⟨j, c⟩ := p
    simp only [memWfFrom, Bool.and_eq_true, decide_eq_true_eq] at h
    have h1 : j ≠ a := by omega
    have h2 : a < j := by omega
    simp [memGet, h1, h2]

theorem memGet_memCons_same {a : Nat} {b : Byte} {r : Bytes} (h : memWfFrom (a + 1) r = true) :
    memGet (memCons a b r) a = b := by
  unfold memCons
  split
  · rename_i hb
    rw [memGet_below h (by omega), hb]
  · simp [memGet]

theorem memGet_memCons_other {a k : Nat} {b : Byte} {r : Bytes} (h : memWfFrom (a + 1) r = true) (hk : k ≠ a) :
    memGet (memCons a b r) k = memGet r k := by
  unfold memCons
  split
  · rfl
  · have h1 : a ≠ k := fun e => hk e.symm
    by_cases h2 : k < a
    · simp [memGet, h1, h2, memGet_below h (by omega : k < a + 1)]
    · simp [memGet, h1, h2]

/-- A byte reads as it was written. -/
theorem memGet_memSet_same {lo a : Nat} {b : Byte} {m : Bytes} (h : memWfFrom lo m = true) :
    memGet (memSet m a b) a = b := by
  induction m generalizing lo with
  | nil => exact memGet_memCons_same rfl
  | cons p r ih =>
    obtain ⟨j, c⟩ := p
    have hf := h
    simp only [memWfFrom, Bool.and_eq_true, decide_eq_true_eq] at h
    unfold memSet
    split
    · exact memGet_memCons_same (by simp [memWfFrom, h]; omega)
    · split
      · rename_i e
        subst e
        exact memGet_memCons_same h.2
      · rename_i h1 h2
        simp [memGet, Ne.symm h2, h1, ih h.2]

/-- Other addresses read as before a byte is written. -/
theorem memGet_memSet_other {lo a k : Nat} {b : Byte} {m : Bytes} (h : memWfFrom lo m = true) (hk : k ≠ a) :
    memGet (memSet m a b) k = memGet m k := by
  induction m generalizing lo with
  | nil => rw [memSet, memGet_memCons_other rfl hk]
  | cons p r ih =>
    obtain ⟨j, c⟩ := p
    have hf := h
    simp only [memWfFrom, Bool.and_eq_true, decide_eq_true_eq] at h
    unfold memSet
    split
    · rw [memGet_memCons_other (by simp [memWfFrom, h]; omega) hk]
    · split
      · rename_i e
        subst e
        rw [memGet_memCons_other h.2 hk]
        by_cases h2 : k < a
        · simp [memGet, Ne.symm hk, h2, memGet_below h.2 (by omega : k < a + 1)]
        · simp [memGet, Ne.symm hk, h2]
      · simp [memGet, ih h.2]

/-- After a write of bytes at a: a byte within reads as written, every other address reads as before. -/
theorem memGet_memWrite {m : Bytes} (a : Nat) (bs : List Byte) (k : Nat) (h : memWf m = true) :
    memGet (memWrite m a bs) k = if a ≤ k ∧ k < a + bs.length then (bs[k - a]?).getD unlisted else memGet m k := by
  induction bs generalizing m a with
  | nil =>
    have hn : ¬ (a ≤ k ∧ k < a) := by omega
    simp [memWrite, hn]
  | cons b r ih =>
    rw [memWrite, ih (a + 1) (memWf_memSet a b h)]
    by_cases h1 : k = a
    · subst h1
      have hn : ¬ (k + 1 ≤ k ∧ k < k + 1 + r.length) := by omega
      have hp : k ≤ k ∧ k < k + (b :: r).length := by simp
      rw [if_neg hn, if_pos hp, memGet_memSet_same h]
      simp
    · by_cases h2 : a + 1 ≤ k ∧ k < a + 1 + r.length
      · have h3 : a ≤ k ∧ k < a + (b :: r).length := by simp; omega
        have h4 : k - a = k - (a + 1) + 1 := by omega
        rw [if_pos h2, if_pos h3, h4]
        simp
      · have h3 : ¬ (a ≤ k ∧ k < a + (b :: r).length) := by simp; omega
        rw [if_neg h2, if_neg h3, memGet_memSet_other h h1]

/-- Writing what an unlisted address reads as, at one, leaves the memory. -/
theorem memSet_absent {m : Bytes} {a : Nat} (h : ∀ c, c ∈ m → c.1 ≠ a) : memSet m a unlisted = m := by
  induction m with
  | nil => simp [memSet, memCons]
  | cons p r ih =>
    obtain ⟨j, c⟩ := p
    have h1 : j ≠ a := h _ List.mem_cons_self
    unfold memSet
    split
    · simp [memCons]
    · rw [if_neg (fun e => h1 e.symm), ih fun c hc => h c (List.mem_cons_of_mem _ hc)]

/-- A write of what unlisted addresses read as, over addresses that are not listed, leaves the memory. -/
theorem memWrite_absent (n : Nat) {m : Bytes} {a : Nat} (h : ∀ c, c ∈ m → c.1 < a ∨ a + n ≤ c.1) :
    memWrite m a (List.replicate n unlisted) = m := by
  induction n generalizing a with
  | zero => rfl
  | succ n ih =>
    rw [List.replicate_succ, memWrite, memSet_absent fun c hc => by have := h c hc; omega]
    exact ih fun c hc => by have := h c hc; omega

/-- A write of two parts is two writes. -/
theorem memWrite_append (m : Bytes) (a : Nat) (bs cs : List Byte) :
    memWrite m a (bs ++ cs) = memWrite (memWrite m a bs) (a + bs.length) cs := by
  induction bs generalizing m a with
  | nil => rfl
  | cons b r ih => simp only [List.cons_append, memWrite, ih, List.length_cons, Nat.add_assoc, Nat.add_comm 1]

end Sys2Proof.Machine
end

