-- ==== Sys2Proof/Laws/Tables.lean ====
section
/-! SUPPORT. Tables.lean: what reading a sparse table or a list of fixed places gives after a write of it. -/

namespace Sys2Proof.Machine

@[simp] theorem Tab.get_set_same {α : Type} (t : Tab α) (k : Nat) (v : α) : Tab.get (Tab.set t k v) k = some v := by
  induction t with
  | nil => simp [Tab.set, Tab.get]
  | cons p r ih =>
    obtain ⟨j, a⟩ := p
    unfold Tab.set
    split
    · simp [Tab.get]
    · split
      · simp [Tab.get]
      · rename_i h
        simp [Tab.get, Ne.symm h, ih]

theorem Tab.get_set_other {α : Type} (t : Tab α) (k k' : Nat) (v : α) (h : k' ≠ k) :
    Tab.get (Tab.set t k v) k' = Tab.get t k' := by
  induction t with
  | nil => simp [Tab.set, Tab.get, Ne.symm h]
  | cons p r ih =>
    obtain ⟨j, a⟩ := p
    unfold Tab.set
    split
    · simp [Tab.get, Ne.symm h]
    · split
      · rename_i e
        subst e
        simp [Tab.get, Ne.symm h]
      · simp [Tab.get, ih]

@[simp] theorem putAt_same {α : Type} (d : α) (l : List α) (n : Nat) (v : α) : (putAt d l n v)[n]? = some v := by
  induction l generalizing n with
  | nil => induction n with
    | zero => simp [putAt]
    | succ n ih => simp [putAt, ih]
  | cons a r ih => cases n <;> simp [putAt, ih]

theorem putAt_other {α : Type} (d : α) (l : List α) (n m : Nat) (v : α) (h : m ≠ n) :
    ((putAt d l n v)[m]?).getD d = (l[m]?).getD d := by
  induction l generalizing n m with
  | nil =>
    induction n generalizing m with
    | zero => cases m <;> simp_all [putAt]
    | succ n ih =>
      cases m with
      | zero => simp [putAt]
      | succ m =>
        have := ih m (by omega)
        simpa [putAt] using this
  | cons a r ih =>
    cases n with
    | zero => cases m <;> simp_all [putAt]
    | succ n =>
      cases m with
      | zero => simp [putAt]
      | succ m => simpa [putAt] using ih n m (by omega)

end Sys2Proof.Machine
end

