-- ==== Sys2Proof/Laws/State.lean ====
section
/-! SUPPORT. State.lean (laws): what each field of the state holds after each shared update, one lemma for each, so that no later
proof unfolds a record update. -/

namespace Sys2Proof.Machine

variable (s : State)

/-! ### setEntry -/

@[simp] theorem State.setEntry_tally (i : Nat) (e : Entry) : (s.setEntry i e).tally = s.tally := rfl
@[simp] theorem State.setEntry_pending (i : Nat) (e : Entry) : (s.setEntry i e).pending = s.pending := rfl
@[simp] theorem State.setEntry_fresh (i : Nat) (e : Entry) : (s.setEntry i e).fresh = s.fresh := rfl
@[simp] theorem State.setEntry_lag (i : Nat) (e : Entry) : (s.setEntry i e).lag = s.lag := rfl
@[simp] theorem State.setEntry_clk (i : Nat) (e : Entry) : (s.setEntry i e).clk = s.clk := rfl
@[simp] theorem State.setEntry_pins (i : Nat) (e : Entry) : (s.setEntry i e).pins = s.pins := rfl
@[simp] theorem State.setEntry_cnt (i : Nat) (e : Entry) : (s.setEntry i e).cnt = s.cnt := rfl
@[simp] theorem State.setEntry_lnd (i : Nat) (e : Entry) : (s.setEntry i e).lnd = s.lnd := rfl
@[simp] theorem State.setEntry_doms (i : Nat) (e : Entry) : (s.setEntry i e).doms = s.doms := rfl
@[simp] theorem State.setEntry_dsp (i : Nat) (e : Entry) : (s.setEntry i e).dsp = s.dsp := rfl
@[simp] theorem State.setEntry_tt (i : Nat) (e : Entry) : (s.setEntry i e).tt = s.tt := rfl
@[simp] theorem State.setEntry_pil (i : Nat) (e : Entry) : (s.setEntry i e).pil = s.pil := rfl
@[simp] theorem State.setEntry_tok (i : Nat) (e : Entry) : (s.setEntry i e).tok = s.tok := rfl
@[simp] theorem State.setEntry_txt (i : Nat) (e : Entry) : (s.setEntry i e).txt = s.txt := rfl
@[simp] theorem State.setEntry_cls (i : Nat) (e : Entry) : (s.setEntry i e).cls = s.cls := rfl
@[simp] theorem State.setEntry_tre (i : Nat) (e : Entry) : (s.setEntry i e).tre = s.tre := rfl
@[simp] theorem State.setEntry_ramp (i : Nat) (e : Entry) : (s.setEntry i e).ramp = s.ramp := rfl
@[simp] theorem State.setEntry_mem (i : Nat) (e : Entry) : (s.setEntry i e).mem = s.mem := rfl
@[simp] theorem State.setEntry_fry (i : Nat) (e : Entry) : (s.setEntry i e).fry = s.fry := rfl
@[simp] theorem State.setEntry_wch (i : Nat) (e : Entry) : (s.setEntry i e).wch = s.wch := rfl
@[simp] theorem State.setEntry_log (i : Nat) (e : Entry) : (s.setEntry i e).log = s.log := rfl
@[simp] theorem State.setEntry_inj (i : Nat) (e : Entry) : (s.setEntry i e).inj = s.inj := rfl

/-! ### updEntry -/

@[simp] theorem State.updEntry_tally (i : Nat) (f : Entry → Entry) : (s.updEntry i f).tally = s.tally := rfl
@[simp] theorem State.updEntry_pending (i : Nat) (f : Entry → Entry) : (s.updEntry i f).pending = s.pending := rfl
@[simp] theorem State.updEntry_fresh (i : Nat) (f : Entry → Entry) : (s.updEntry i f).fresh = s.fresh := rfl
@[simp] theorem State.updEntry_lag (i : Nat) (f : Entry → Entry) : (s.updEntry i f).lag = s.lag := rfl
@[simp] theorem State.updEntry_clk (i : Nat) (f : Entry → Entry) : (s.updEntry i f).clk = s.clk := rfl
@[simp] theorem State.updEntry_pins (i : Nat) (f : Entry → Entry) : (s.updEntry i f).pins = s.pins := rfl
@[simp] theorem State.updEntry_cnt (i : Nat) (f : Entry → Entry) : (s.updEntry i f).cnt = s.cnt := rfl
@[simp] theorem State.updEntry_lnd (i : Nat) (f : Entry → Entry) : (s.updEntry i f).lnd = s.lnd := rfl
@[simp] theorem State.updEntry_doms (i : Nat) (f : Entry → Entry) : (s.updEntry i f).doms = s.doms := rfl
@[simp] theorem State.updEntry_dsp (i : Nat) (f : Entry → Entry) : (s.updEntry i f).dsp = s.dsp := rfl
@[simp] theorem State.updEntry_tt (i : Nat) (f : Entry → Entry) : (s.updEntry i f).tt = s.tt := rfl
@[simp] theorem State.updEntry_pil (i : Nat) (f : Entry → Entry) : (s.updEntry i f).pil = s.pil := rfl
@[simp] theorem State.updEntry_tok (i : Nat) (f : Entry → Entry) : (s.updEntry i f).tok = s.tok := rfl
@[simp] theorem State.updEntry_txt (i : Nat) (f : Entry → Entry) : (s.updEntry i f).txt = s.txt := rfl
@[simp] theorem State.updEntry_cls (i : Nat) (f : Entry → Entry) : (s.updEntry i f).cls = s.cls := rfl
@[simp] theorem State.updEntry_tre (i : Nat) (f : Entry → Entry) : (s.updEntry i f).tre = s.tre := rfl
@[simp] theorem State.updEntry_ramp (i : Nat) (f : Entry → Entry) : (s.updEntry i f).ramp = s.ramp := rfl
@[simp] theorem State.updEntry_mem (i : Nat) (f : Entry → Entry) : (s.updEntry i f).mem = s.mem := rfl
@[simp] theorem State.updEntry_fry (i : Nat) (f : Entry → Entry) : (s.updEntry i f).fry = s.fry := rfl
@[simp] theorem State.updEntry_wch (i : Nat) (f : Entry → Entry) : (s.updEntry i f).wch = s.wch := rfl
@[simp] theorem State.updEntry_log (i : Nat) (f : Entry → Entry) : (s.updEntry i f).log = s.log := rfl
@[simp] theorem State.updEntry_inj (i : Nat) (f : Entry → Entry) : (s.updEntry i f).inj = s.inj := rfl

/-! ### updReq -/

@[simp] theorem State.updReq_tally (i : Nat) (f : Req → Req) : (s.updReq i f).tally = s.tally := rfl
@[simp] theorem State.updReq_pending (i : Nat) (f : Req → Req) : (s.updReq i f).pending = s.pending := rfl
@[simp] theorem State.updReq_fresh (i : Nat) (f : Req → Req) : (s.updReq i f).fresh = s.fresh := rfl
@[simp] theorem State.updReq_lag (i : Nat) (f : Req → Req) : (s.updReq i f).lag = s.lag := rfl
@[simp] theorem State.updReq_clk (i : Nat) (f : Req → Req) : (s.updReq i f).clk = s.clk := rfl
@[simp] theorem State.updReq_pins (i : Nat) (f : Req → Req) : (s.updReq i f).pins = s.pins := rfl
@[simp] theorem State.updReq_cnt (i : Nat) (f : Req → Req) : (s.updReq i f).cnt = s.cnt := rfl
@[simp] theorem State.updReq_lnd (i : Nat) (f : Req → Req) : (s.updReq i f).lnd = s.lnd := rfl
@[simp] theorem State.updReq_doms (i : Nat) (f : Req → Req) : (s.updReq i f).doms = s.doms := rfl
@[simp] theorem State.updReq_dsp (i : Nat) (f : Req → Req) : (s.updReq i f).dsp = s.dsp := rfl
@[simp] theorem State.updReq_tt (i : Nat) (f : Req → Req) : (s.updReq i f).tt = s.tt := rfl
@[simp] theorem State.updReq_pil (i : Nat) (f : Req → Req) : (s.updReq i f).pil = s.pil := rfl
@[simp] theorem State.updReq_tok (i : Nat) (f : Req → Req) : (s.updReq i f).tok = s.tok := rfl
@[simp] theorem State.updReq_txt (i : Nat) (f : Req → Req) : (s.updReq i f).txt = s.txt := rfl
@[simp] theorem State.updReq_cls (i : Nat) (f : Req → Req) : (s.updReq i f).cls = s.cls := rfl
@[simp] theorem State.updReq_tre (i : Nat) (f : Req → Req) : (s.updReq i f).tre = s.tre := rfl
@[simp] theorem State.updReq_ramp (i : Nat) (f : Req → Req) : (s.updReq i f).ramp = s.ramp := rfl
@[simp] theorem State.updReq_mem (i : Nat) (f : Req → Req) : (s.updReq i f).mem = s.mem := rfl
@[simp] theorem State.updReq_fry (i : Nat) (f : Req → Req) : (s.updReq i f).fry = s.fry := rfl
@[simp] theorem State.updReq_wch (i : Nat) (f : Req → Req) : (s.updReq i f).wch = s.wch := rfl
@[simp] theorem State.updReq_log (i : Nat) (f : Req → Req) : (s.updReq i f).log = s.log := rfl
@[simp] theorem State.updReq_inj (i : Nat) (f : Req → Req) : (s.updReq i f).inj = s.inj := rfl

/-! ### setDom -/

@[simp] theorem State.setDom_tally (d : Nat) (x : Domain) : (s.setDom d x).tally = s.tally := rfl
@[simp] theorem State.setDom_pending (d : Nat) (x : Domain) : (s.setDom d x).pending = s.pending := rfl
@[simp] theorem State.setDom_fresh (d : Nat) (x : Domain) : (s.setDom d x).fresh = s.fresh := rfl
@[simp] theorem State.setDom_lag (d : Nat) (x : Domain) : (s.setDom d x).lag = s.lag := rfl
@[simp] theorem State.setDom_clk (d : Nat) (x : Domain) : (s.setDom d x).clk = s.clk := rfl
@[simp] theorem State.setDom_pins (d : Nat) (x : Domain) : (s.setDom d x).pins = s.pins := rfl
@[simp] theorem State.setDom_cnt (d : Nat) (x : Domain) : (s.setDom d x).cnt = s.cnt := rfl
@[simp] theorem State.setDom_lnd (d : Nat) (x : Domain) : (s.setDom d x).lnd = s.lnd := rfl
@[simp] theorem State.setDom_man (d : Nat) (x : Domain) : (s.setDom d x).man = s.man := rfl
@[simp] theorem State.setDom_dsp (d : Nat) (x : Domain) : (s.setDom d x).dsp = s.dsp := rfl
@[simp] theorem State.setDom_tt (d : Nat) (x : Domain) : (s.setDom d x).tt = s.tt := rfl
@[simp] theorem State.setDom_pil (d : Nat) (x : Domain) : (s.setDom d x).pil = s.pil := rfl
@[simp] theorem State.setDom_tok (d : Nat) (x : Domain) : (s.setDom d x).tok = s.tok := rfl
@[simp] theorem State.setDom_txt (d : Nat) (x : Domain) : (s.setDom d x).txt = s.txt := rfl
@[simp] theorem State.setDom_cls (d : Nat) (x : Domain) : (s.setDom d x).cls = s.cls := rfl
@[simp] theorem State.setDom_tre (d : Nat) (x : Domain) : (s.setDom d x).tre = s.tre := rfl
@[simp] theorem State.setDom_ramp (d : Nat) (x : Domain) : (s.setDom d x).ramp = s.ramp := rfl
@[simp] theorem State.setDom_mem (d : Nat) (x : Domain) : (s.setDom d x).mem = s.mem := rfl
@[simp] theorem State.setDom_fry (d : Nat) (x : Domain) : (s.setDom d x).fry = s.fry := rfl
@[simp] theorem State.setDom_wch (d : Nat) (x : Domain) : (s.setDom d x).wch = s.wch := rfl
@[simp] theorem State.setDom_log (d : Nat) (x : Domain) : (s.setDom d x).log = s.log := rfl
@[simp] theorem State.setDom_inj (d : Nat) (x : Domain) : (s.setDom d x).inj = s.inj := rfl

/-! ### updDom -/

@[simp] theorem State.updDom_tally (d : Nat) (f : Domain → Domain) : (s.updDom d f).tally = s.tally := rfl
@[simp] theorem State.updDom_pending (d : Nat) (f : Domain → Domain) : (s.updDom d f).pending = s.pending := rfl
@[simp] theorem State.updDom_fresh (d : Nat) (f : Domain → Domain) : (s.updDom d f).fresh = s.fresh := rfl
@[simp] theorem State.updDom_lag (d : Nat) (f : Domain → Domain) : (s.updDom d f).lag = s.lag := rfl
@[simp] theorem State.updDom_clk (d : Nat) (f : Domain → Domain) : (s.updDom d f).clk = s.clk := rfl
@[simp] theorem State.updDom_pins (d : Nat) (f : Domain → Domain) : (s.updDom d f).pins = s.pins := rfl
@[simp] theorem State.updDom_cnt (d : Nat) (f : Domain → Domain) : (s.updDom d f).cnt = s.cnt := rfl
@[simp] theorem State.updDom_lnd (d : Nat) (f : Domain → Domain) : (s.updDom d f).lnd = s.lnd := rfl
@[simp] theorem State.updDom_man (d : Nat) (f : Domain → Domain) : (s.updDom d f).man = s.man := rfl
@[simp] theorem State.updDom_dsp (d : Nat) (f : Domain → Domain) : (s.updDom d f).dsp = s.dsp := rfl
@[simp] theorem State.updDom_tt (d : Nat) (f : Domain → Domain) : (s.updDom d f).tt = s.tt := rfl
@[simp] theorem State.updDom_pil (d : Nat) (f : Domain → Domain) : (s.updDom d f).pil = s.pil := rfl
@[simp] theorem State.updDom_tok (d : Nat) (f : Domain → Domain) : (s.updDom d f).tok = s.tok := rfl
@[simp] theorem State.updDom_txt (d : Nat) (f : Domain → Domain) : (s.updDom d f).txt = s.txt := rfl
@[simp] theorem State.updDom_cls (d : Nat) (f : Domain → Domain) : (s.updDom d f).cls = s.cls := rfl
@[simp] theorem State.updDom_tre (d : Nat) (f : Domain → Domain) : (s.updDom d f).tre = s.tre := rfl
@[simp] theorem State.updDom_ramp (d : Nat) (f : Domain → Domain) : (s.updDom d f).ramp = s.ramp := rfl
@[simp] theorem State.updDom_mem (d : Nat) (f : Domain → Domain) : (s.updDom d f).mem = s.mem := rfl
@[simp] theorem State.updDom_fry (d : Nat) (f : Domain → Domain) : (s.updDom d f).fry = s.fry := rfl
@[simp] theorem State.updDom_wch (d : Nat) (f : Domain → Domain) : (s.updDom d f).wch = s.wch := rfl
@[simp] theorem State.updDom_log (d : Nat) (f : Domain → Domain) : (s.updDom d f).log = s.log := rfl
@[simp] theorem State.updDom_inj (d : Nat) (f : Domain → Domain) : (s.updDom d f).inj = s.inj := rfl

/-! ### setSlot -/

@[simp] theorem State.setSlot_tally (i : Nat) (x : Slot) : (s.setSlot i x).tally = s.tally := rfl
@[simp] theorem State.setSlot_pending (i : Nat) (x : Slot) : (s.setSlot i x).pending = s.pending := rfl
@[simp] theorem State.setSlot_fresh (i : Nat) (x : Slot) : (s.setSlot i x).fresh = s.fresh := rfl
@[simp] theorem State.setSlot_lag (i : Nat) (x : Slot) : (s.setSlot i x).lag = s.lag := rfl
@[simp] theorem State.setSlot_clk (i : Nat) (x : Slot) : (s.setSlot i x).clk = s.clk := rfl
@[simp] theorem State.setSlot_pins (i : Nat) (x : Slot) : (s.setSlot i x).pins = s.pins := rfl
@[simp] theorem State.setSlot_cnt (i : Nat) (x : Slot) : (s.setSlot i x).cnt = s.cnt := rfl
@[simp] theorem State.setSlot_lnd (i : Nat) (x : Slot) : (s.setSlot i x).lnd = s.lnd := rfl
@[simp] theorem State.setSlot_man (i : Nat) (x : Slot) : (s.setSlot i x).man = s.man := rfl
@[simp] theorem State.setSlot_doms (i : Nat) (x : Slot) : (s.setSlot i x).doms = s.doms := rfl
@[simp] theorem State.setSlot_dsp (i : Nat) (x : Slot) : (s.setSlot i x).dsp = s.dsp := rfl
@[simp] theorem State.setSlot_tt (i : Nat) (x : Slot) : (s.setSlot i x).tt = s.tt := rfl
@[simp] theorem State.setSlot_tok (i : Nat) (x : Slot) : (s.setSlot i x).tok = s.tok := rfl
@[simp] theorem State.setSlot_txt (i : Nat) (x : Slot) : (s.setSlot i x).txt = s.txt := rfl
@[simp] theorem State.setSlot_cls (i : Nat) (x : Slot) : (s.setSlot i x).cls = s.cls := rfl
@[simp] theorem State.setSlot_tre (i : Nat) (x : Slot) : (s.setSlot i x).tre = s.tre := rfl
@[simp] theorem State.setSlot_ramp (i : Nat) (x : Slot) : (s.setSlot i x).ramp = s.ramp := rfl
@[simp] theorem State.setSlot_mem (i : Nat) (x : Slot) : (s.setSlot i x).mem = s.mem := rfl
@[simp] theorem State.setSlot_fry (i : Nat) (x : Slot) : (s.setSlot i x).fry = s.fry := rfl
@[simp] theorem State.setSlot_wch (i : Nat) (x : Slot) : (s.setSlot i x).wch = s.wch := rfl
@[simp] theorem State.setSlot_log (i : Nat) (x : Slot) : (s.setSlot i x).log = s.log := rfl
@[simp] theorem State.setSlot_inj (i : Nat) (x : Slot) : (s.setSlot i x).inj = s.inj := rfl

/-! ### setJob -/

@[simp] theorem State.setJob_tally (i : Nat) (j : Option Job) : (s.setJob i j).tally = s.tally := rfl
@[simp] theorem State.setJob_pending (i : Nat) (j : Option Job) : (s.setJob i j).pending = s.pending := rfl
@[simp] theorem State.setJob_fresh (i : Nat) (j : Option Job) : (s.setJob i j).fresh = s.fresh := rfl
@[simp] theorem State.setJob_lag (i : Nat) (j : Option Job) : (s.setJob i j).lag = s.lag := rfl
@[simp] theorem State.setJob_clk (i : Nat) (j : Option Job) : (s.setJob i j).clk = s.clk := rfl
@[simp] theorem State.setJob_pins (i : Nat) (j : Option Job) : (s.setJob i j).pins = s.pins := rfl
@[simp] theorem State.setJob_cnt (i : Nat) (j : Option Job) : (s.setJob i j).cnt = s.cnt := rfl
@[simp] theorem State.setJob_lnd (i : Nat) (j : Option Job) : (s.setJob i j).lnd = s.lnd := rfl
@[simp] theorem State.setJob_man (i : Nat) (j : Option Job) : (s.setJob i j).man = s.man := rfl
@[simp] theorem State.setJob_doms (i : Nat) (j : Option Job) : (s.setJob i j).doms = s.doms := rfl
@[simp] theorem State.setJob_dsp (i : Nat) (j : Option Job) : (s.setJob i j).dsp = s.dsp := rfl
@[simp] theorem State.setJob_tt (i : Nat) (j : Option Job) : (s.setJob i j).tt = s.tt := rfl
@[simp] theorem State.setJob_tok (i : Nat) (j : Option Job) : (s.setJob i j).tok = s.tok := rfl
@[simp] theorem State.setJob_txt (i : Nat) (j : Option Job) : (s.setJob i j).txt = s.txt := rfl
@[simp] theorem State.setJob_cls (i : Nat) (j : Option Job) : (s.setJob i j).cls = s.cls := rfl
@[simp] theorem State.setJob_tre (i : Nat) (j : Option Job) : (s.setJob i j).tre = s.tre := rfl
@[simp] theorem State.setJob_ramp (i : Nat) (j : Option Job) : (s.setJob i j).ramp = s.ramp := rfl
@[simp] theorem State.setJob_mem (i : Nat) (j : Option Job) : (s.setJob i j).mem = s.mem := rfl
@[simp] theorem State.setJob_fry (i : Nat) (j : Option Job) : (s.setJob i j).fry = s.fry := rfl
@[simp] theorem State.setJob_wch (i : Nat) (j : Option Job) : (s.setJob i j).wch = s.wch := rfl
@[simp] theorem State.setJob_log (i : Nat) (j : Option Job) : (s.setJob i j).log = s.log := rfl
@[simp] theorem State.setJob_inj (i : Nat) (j : Option Job) : (s.setJob i j).inj = s.inj := rfl

/-! ### setInst -/

@[simp] theorem State.setInst_tally (i : Nat) (g : GInst) : (s.setInst i g).tally = s.tally := rfl
@[simp] theorem State.setInst_pending (i : Nat) (g : GInst) : (s.setInst i g).pending = s.pending := rfl
@[simp] theorem State.setInst_fresh (i : Nat) (g : GInst) : (s.setInst i g).fresh = s.fresh := rfl
@[simp] theorem State.setInst_lag (i : Nat) (g : GInst) : (s.setInst i g).lag = s.lag := rfl
@[simp] theorem State.setInst_clk (i : Nat) (g : GInst) : (s.setInst i g).clk = s.clk := rfl
@[simp] theorem State.setInst_pins (i : Nat) (g : GInst) : (s.setInst i g).pins = s.pins := rfl
@[simp] theorem State.setInst_cnt (i : Nat) (g : GInst) : (s.setInst i g).cnt = s.cnt := rfl
@[simp] theorem State.setInst_lnd (i : Nat) (g : GInst) : (s.setInst i g).lnd = s.lnd := rfl
@[simp] theorem State.setInst_man (i : Nat) (g : GInst) : (s.setInst i g).man = s.man := rfl
@[simp] theorem State.setInst_doms (i : Nat) (g : GInst) : (s.setInst i g).doms = s.doms := rfl
@[simp] theorem State.setInst_tt (i : Nat) (g : GInst) : (s.setInst i g).tt = s.tt := rfl
@[simp] theorem State.setInst_pil (i : Nat) (g : GInst) : (s.setInst i g).pil = s.pil := rfl
@[simp] theorem State.setInst_tok (i : Nat) (g : GInst) : (s.setInst i g).tok = s.tok := rfl
@[simp] theorem State.setInst_txt (i : Nat) (g : GInst) : (s.setInst i g).txt = s.txt := rfl
@[simp] theorem State.setInst_cls (i : Nat) (g : GInst) : (s.setInst i g).cls = s.cls := rfl
@[simp] theorem State.setInst_tre (i : Nat) (g : GInst) : (s.setInst i g).tre = s.tre := rfl
@[simp] theorem State.setInst_ramp (i : Nat) (g : GInst) : (s.setInst i g).ramp = s.ramp := rfl
@[simp] theorem State.setInst_mem (i : Nat) (g : GInst) : (s.setInst i g).mem = s.mem := rfl
@[simp] theorem State.setInst_fry (i : Nat) (g : GInst) : (s.setInst i g).fry = s.fry := rfl
@[simp] theorem State.setInst_wch (i : Nat) (g : GInst) : (s.setInst i g).wch = s.wch := rfl
@[simp] theorem State.setInst_log (i : Nat) (g : GInst) : (s.setInst i g).log = s.log := rfl
@[simp] theorem State.setInst_inj (i : Nat) (g : GInst) : (s.setInst i g).inj = s.inj := rfl

/-! ### setPort -/

@[simp] theorem State.setPort_tally (p : Nat) (x : Port) : (s.setPort p x).tally = s.tally := rfl
@[simp] theorem State.setPort_pending (p : Nat) (x : Port) : (s.setPort p x).pending = s.pending := rfl
@[simp] theorem State.setPort_fresh (p : Nat) (x : Port) : (s.setPort p x).fresh = s.fresh := rfl
@[simp] theorem State.setPort_lag (p : Nat) (x : Port) : (s.setPort p x).lag = s.lag := rfl
@[simp] theorem State.setPort_clk (p : Nat) (x : Port) : (s.setPort p x).clk = s.clk := rfl
@[simp] theorem State.setPort_pins (p : Nat) (x : Port) : (s.setPort p x).pins = s.pins := rfl
@[simp] theorem State.setPort_cnt (p : Nat) (x : Port) : (s.setPort p x).cnt = s.cnt := rfl
@[simp] theorem State.setPort_lnd (p : Nat) (x : Port) : (s.setPort p x).lnd = s.lnd := rfl
@[simp] theorem State.setPort_man (p : Nat) (x : Port) : (s.setPort p x).man = s.man := rfl
@[simp] theorem State.setPort_doms (p : Nat) (x : Port) : (s.setPort p x).doms = s.doms := rfl
@[simp] theorem State.setPort_dsp (p : Nat) (x : Port) : (s.setPort p x).dsp = s.dsp := rfl
@[simp] theorem State.setPort_tt (p : Nat) (x : Port) : (s.setPort p x).tt = s.tt := rfl
@[simp] theorem State.setPort_pil (p : Nat) (x : Port) : (s.setPort p x).pil = s.pil := rfl
@[simp] theorem State.setPort_tok (p : Nat) (x : Port) : (s.setPort p x).tok = s.tok := rfl
@[simp] theorem State.setPort_txt (p : Nat) (x : Port) : (s.setPort p x).txt = s.txt := rfl
@[simp] theorem State.setPort_cls (p : Nat) (x : Port) : (s.setPort p x).cls = s.cls := rfl
@[simp] theorem State.setPort_tre (p : Nat) (x : Port) : (s.setPort p x).tre = s.tre := rfl
@[simp] theorem State.setPort_ramp (p : Nat) (x : Port) : (s.setPort p x).ramp = s.ramp := rfl
@[simp] theorem State.setPort_fry (p : Nat) (x : Port) : (s.setPort p x).fry = s.fry := rfl
@[simp] theorem State.setPort_wch (p : Nat) (x : Port) : (s.setPort p x).wch = s.wch := rfl
@[simp] theorem State.setPort_log (p : Nat) (x : Port) : (s.setPort p x).log = s.log := rfl
@[simp] theorem State.setPort_inj (p : Nat) (x : Port) : (s.setPort p x).inj = s.inj := rfl

/-! ### setTtc -/

@[simp] theorem State.setTtc_tally (c : Nat) (x : TtClass) : (s.setTtc c x).tally = s.tally := rfl
@[simp] theorem State.setTtc_pending (c : Nat) (x : TtClass) : (s.setTtc c x).pending = s.pending := rfl
@[simp] theorem State.setTtc_fresh (c : Nat) (x : TtClass) : (s.setTtc c x).fresh = s.fresh := rfl
@[simp] theorem State.setTtc_lag (c : Nat) (x : TtClass) : (s.setTtc c x).lag = s.lag := rfl
@[simp] theorem State.setTtc_clk (c : Nat) (x : TtClass) : (s.setTtc c x).clk = s.clk := rfl
@[simp] theorem State.setTtc_pins (c : Nat) (x : TtClass) : (s.setTtc c x).pins = s.pins := rfl
@[simp] theorem State.setTtc_cnt (c : Nat) (x : TtClass) : (s.setTtc c x).cnt = s.cnt := rfl
@[simp] theorem State.setTtc_lnd (c : Nat) (x : TtClass) : (s.setTtc c x).lnd = s.lnd := rfl
@[simp] theorem State.setTtc_man (c : Nat) (x : TtClass) : (s.setTtc c x).man = s.man := rfl
@[simp] theorem State.setTtc_doms (c : Nat) (x : TtClass) : (s.setTtc c x).doms = s.doms := rfl
@[simp] theorem State.setTtc_dsp (c : Nat) (x : TtClass) : (s.setTtc c x).dsp = s.dsp := rfl
@[simp] theorem State.setTtc_pil (c : Nat) (x : TtClass) : (s.setTtc c x).pil = s.pil := rfl
@[simp] theorem State.setTtc_tok (c : Nat) (x : TtClass) : (s.setTtc c x).tok = s.tok := rfl
@[simp] theorem State.setTtc_txt (c : Nat) (x : TtClass) : (s.setTtc c x).txt = s.txt := rfl
@[simp] theorem State.setTtc_cls (c : Nat) (x : TtClass) : (s.setTtc c x).cls = s.cls := rfl
@[simp] theorem State.setTtc_tre (c : Nat) (x : TtClass) : (s.setTtc c x).tre = s.tre := rfl
@[simp] theorem State.setTtc_ramp (c : Nat) (x : TtClass) : (s.setTtc c x).ramp = s.ramp := rfl
@[simp] theorem State.setTtc_mem (c : Nat) (x : TtClass) : (s.setTtc c x).mem = s.mem := rfl
@[simp] theorem State.setTtc_fry (c : Nat) (x : TtClass) : (s.setTtc c x).fry = s.fry := rfl
@[simp] theorem State.setTtc_wch (c : Nat) (x : TtClass) : (s.setTtc c x).wch = s.wch := rfl
@[simp] theorem State.setTtc_log (c : Nat) (x : TtClass) : (s.setTtc c x).log = s.log := rfl
@[simp] theorem State.setTtc_inj (c : Nat) (x : TtClass) : (s.setTtc c x).inj = s.inj := rfl

/-! ### setGroup -/

@[simp] theorem State.setGroup_tally (g : Nat) (x : Group) : (s.setGroup g x).tally = s.tally := rfl
@[simp] theorem State.setGroup_pending (g : Nat) (x : Group) : (s.setGroup g x).pending = s.pending := rfl
@[simp] theorem State.setGroup_fresh (g : Nat) (x : Group) : (s.setGroup g x).fresh = s.fresh := rfl
@[simp] theorem State.setGroup_lag (g : Nat) (x : Group) : (s.setGroup g x).lag = s.lag := rfl
@[simp] theorem State.setGroup_clk (g : Nat) (x : Group) : (s.setGroup g x).clk = s.clk := rfl
@[simp] theorem State.setGroup_pins (g : Nat) (x : Group) : (s.setGroup g x).pins = s.pins := rfl
@[simp] theorem State.setGroup_cnt (g : Nat) (x : Group) : (s.setGroup g x).cnt = s.cnt := rfl
@[simp] theorem State.setGroup_lnd (g : Nat) (x : Group) : (s.setGroup g x).lnd = s.lnd := rfl
@[simp] theorem State.setGroup_man (g : Nat) (x : Group) : (s.setGroup g x).man = s.man := rfl
@[simp] theorem State.setGroup_doms (g : Nat) (x : Group) : (s.setGroup g x).doms = s.doms := rfl
@[simp] theorem State.setGroup_dsp (g : Nat) (x : Group) : (s.setGroup g x).dsp = s.dsp := rfl
@[simp] theorem State.setGroup_tt (g : Nat) (x : Group) : (s.setGroup g x).tt = s.tt := rfl
@[simp] theorem State.setGroup_pil (g : Nat) (x : Group) : (s.setGroup g x).pil = s.pil := rfl
@[simp] theorem State.setGroup_tok (g : Nat) (x : Group) : (s.setGroup g x).tok = s.tok := rfl
@[simp] theorem State.setGroup_txt (g : Nat) (x : Group) : (s.setGroup g x).txt = s.txt := rfl
@[simp] theorem State.setGroup_cls (g : Nat) (x : Group) : (s.setGroup g x).cls = s.cls := rfl
@[simp] theorem State.setGroup_tre (g : Nat) (x : Group) : (s.setGroup g x).tre = s.tre := rfl
@[simp] theorem State.setGroup_ramp (g : Nat) (x : Group) : (s.setGroup g x).ramp = s.ramp := rfl
@[simp] theorem State.setGroup_mem (g : Nat) (x : Group) : (s.setGroup g x).mem = s.mem := rfl
@[simp] theorem State.setGroup_wch (g : Nat) (x : Group) : (s.setGroup g x).wch = s.wch := rfl
@[simp] theorem State.setGroup_log (g : Nat) (x : Group) : (s.setGroup g x).log = s.log := rfl
@[simp] theorem State.setGroup_inj (g : Nat) (x : Group) : (s.setGroup g x).inj = s.inj := rfl

/-! ### draw -/

@[simp] theorem State.draw_tally : (s.draw).tally = s.tally := rfl
@[simp] theorem State.draw_pending : (s.draw).pending = s.pending := rfl
@[simp] theorem State.draw_lag : (s.draw).lag = s.lag := rfl
@[simp] theorem State.draw_clk : (s.draw).clk = s.clk := rfl
@[simp] theorem State.draw_pins : (s.draw).pins = s.pins := rfl
@[simp] theorem State.draw_cnt : (s.draw).cnt = s.cnt := rfl
@[simp] theorem State.draw_lnd : (s.draw).lnd = s.lnd := rfl
@[simp] theorem State.draw_man : (s.draw).man = s.man := rfl
@[simp] theorem State.draw_doms : (s.draw).doms = s.doms := rfl
@[simp] theorem State.draw_dsp : (s.draw).dsp = s.dsp := rfl
@[simp] theorem State.draw_tt : (s.draw).tt = s.tt := rfl
@[simp] theorem State.draw_pil : (s.draw).pil = s.pil := rfl
@[simp] theorem State.draw_tok : (s.draw).tok = s.tok := rfl
@[simp] theorem State.draw_txt : (s.draw).txt = s.txt := rfl
@[simp] theorem State.draw_cls : (s.draw).cls = s.cls := rfl
@[simp] theorem State.draw_tre : (s.draw).tre = s.tre := rfl
@[simp] theorem State.draw_ramp : (s.draw).ramp = s.ramp := rfl
@[simp] theorem State.draw_mem : (s.draw).mem = s.mem := rfl
@[simp] theorem State.draw_fry : (s.draw).fry = s.fry := rfl
@[simp] theorem State.draw_wch : (s.draw).wch = s.wch := rfl
@[simp] theorem State.draw_log : (s.draw).log = s.log := rfl
@[simp] theorem State.draw_inj : (s.draw).inj = s.inj := rfl

/-! ### irq -/

@[simp] theorem State.irq_tally (t : Stamp) : (s.irq t).tally = s.tally := rfl
@[simp] theorem State.irq_pending (t : Stamp) : (s.irq t).pending = s.pending := rfl
@[simp] theorem State.irq_fresh (t : Stamp) : (s.irq t).fresh = s.fresh := rfl
@[simp] theorem State.irq_lag (t : Stamp) : (s.irq t).lag = s.lag := rfl
@[simp] theorem State.irq_clk (t : Stamp) : (s.irq t).clk = s.clk := rfl
@[simp] theorem State.irq_cnt (t : Stamp) : (s.irq t).cnt = s.cnt := rfl
@[simp] theorem State.irq_lnd (t : Stamp) : (s.irq t).lnd = s.lnd := rfl
@[simp] theorem State.irq_man (t : Stamp) : (s.irq t).man = s.man := rfl
@[simp] theorem State.irq_doms (t : Stamp) : (s.irq t).doms = s.doms := rfl
@[simp] theorem State.irq_dsp (t : Stamp) : (s.irq t).dsp = s.dsp := rfl
@[simp] theorem State.irq_tt (t : Stamp) : (s.irq t).tt = s.tt := rfl
@[simp] theorem State.irq_pil (t : Stamp) : (s.irq t).pil = s.pil := rfl
@[simp] theorem State.irq_tok (t : Stamp) : (s.irq t).tok = s.tok := rfl
@[simp] theorem State.irq_txt (t : Stamp) : (s.irq t).txt = s.txt := rfl
@[simp] theorem State.irq_cls (t : Stamp) : (s.irq t).cls = s.cls := rfl
@[simp] theorem State.irq_tre (t : Stamp) : (s.irq t).tre = s.tre := rfl
@[simp] theorem State.irq_ramp (t : Stamp) : (s.irq t).ramp = s.ramp := rfl
@[simp] theorem State.irq_mem (t : Stamp) : (s.irq t).mem = s.mem := rfl
@[simp] theorem State.irq_fry (t : Stamp) : (s.irq t).fry = s.fry := rfl
@[simp] theorem State.irq_wch (t : Stamp) : (s.irq t).wch = s.wch := rfl
@[simp] theorem State.irq_log (t : Stamp) : (s.irq t).log = s.log := rfl
@[simp] theorem State.irq_inj (t : Stamp) : (s.irq t).inj = s.inj := rfl

/-! ### wr -/

@[simp] theorem State.wr_tally (a : Nat) (bs : List Byte) : (s.wr a bs).tally = s.tally := rfl
@[simp] theorem State.wr_pending (a : Nat) (bs : List Byte) : (s.wr a bs).pending = s.pending := rfl
@[simp] theorem State.wr_fresh (a : Nat) (bs : List Byte) : (s.wr a bs).fresh = s.fresh := rfl
@[simp] theorem State.wr_lag (a : Nat) (bs : List Byte) : (s.wr a bs).lag = s.lag := rfl
@[simp] theorem State.wr_clk (a : Nat) (bs : List Byte) : (s.wr a bs).clk = s.clk := rfl
@[simp] theorem State.wr_pins (a : Nat) (bs : List Byte) : (s.wr a bs).pins = s.pins := rfl
@[simp] theorem State.wr_cnt (a : Nat) (bs : List Byte) : (s.wr a bs).cnt = s.cnt := rfl
@[simp] theorem State.wr_lnd (a : Nat) (bs : List Byte) : (s.wr a bs).lnd = s.lnd := rfl
@[simp] theorem State.wr_man (a : Nat) (bs : List Byte) : (s.wr a bs).man = s.man := rfl
@[simp] theorem State.wr_doms (a : Nat) (bs : List Byte) : (s.wr a bs).doms = s.doms := rfl
@[simp] theorem State.wr_dsp (a : Nat) (bs : List Byte) : (s.wr a bs).dsp = s.dsp := rfl
@[simp] theorem State.wr_tt (a : Nat) (bs : List Byte) : (s.wr a bs).tt = s.tt := rfl
@[simp] theorem State.wr_pil (a : Nat) (bs : List Byte) : (s.wr a bs).pil = s.pil := rfl
@[simp] theorem State.wr_tok (a : Nat) (bs : List Byte) : (s.wr a bs).tok = s.tok := rfl
@[simp] theorem State.wr_txt (a : Nat) (bs : List Byte) : (s.wr a bs).txt = s.txt := rfl
@[simp] theorem State.wr_cls (a : Nat) (bs : List Byte) : (s.wr a bs).cls = s.cls := rfl
@[simp] theorem State.wr_tre (a : Nat) (bs : List Byte) : (s.wr a bs).tre = s.tre := rfl
@[simp] theorem State.wr_ramp (a : Nat) (bs : List Byte) : (s.wr a bs).ramp = s.ramp := rfl
@[simp] theorem State.wr_fry (a : Nat) (bs : List Byte) : (s.wr a bs).fry = s.fry := rfl
@[simp] theorem State.wr_wch (a : Nat) (bs : List Byte) : (s.wr a bs).wch = s.wch := rfl
@[simp] theorem State.wr_log (a : Nat) (bs : List Byte) : (s.wr a bs).log = s.log := rfl
@[simp] theorem State.wr_inj (a : Nat) (bs : List Byte) : (s.wr a bs).inj = s.inj := rfl

/-! ### setPois -/

@[simp] theorem State.setPois_tally (a : Nat) (p : Bool) : (s.setPois a p).tally = s.tally := rfl
@[simp] theorem State.setPois_pending (a : Nat) (p : Bool) : (s.setPois a p).pending = s.pending := rfl
@[simp] theorem State.setPois_fresh (a : Nat) (p : Bool) : (s.setPois a p).fresh = s.fresh := rfl
@[simp] theorem State.setPois_lag (a : Nat) (p : Bool) : (s.setPois a p).lag = s.lag := rfl
@[simp] theorem State.setPois_clk (a : Nat) (p : Bool) : (s.setPois a p).clk = s.clk := rfl
@[simp] theorem State.setPois_pins (a : Nat) (p : Bool) : (s.setPois a p).pins = s.pins := rfl
@[simp] theorem State.setPois_cnt (a : Nat) (p : Bool) : (s.setPois a p).cnt = s.cnt := rfl
@[simp] theorem State.setPois_lnd (a : Nat) (p : Bool) : (s.setPois a p).lnd = s.lnd := rfl
@[simp] theorem State.setPois_man (a : Nat) (p : Bool) : (s.setPois a p).man = s.man := rfl
@[simp] theorem State.setPois_doms (a : Nat) (p : Bool) : (s.setPois a p).doms = s.doms := rfl
@[simp] theorem State.setPois_dsp (a : Nat) (p : Bool) : (s.setPois a p).dsp = s.dsp := rfl
@[simp] theorem State.setPois_tt (a : Nat) (p : Bool) : (s.setPois a p).tt = s.tt := rfl
@[simp] theorem State.setPois_pil (a : Nat) (p : Bool) : (s.setPois a p).pil = s.pil := rfl
@[simp] theorem State.setPois_tok (a : Nat) (p : Bool) : (s.setPois a p).tok = s.tok := rfl
@[simp] theorem State.setPois_txt (a : Nat) (p : Bool) : (s.setPois a p).txt = s.txt := rfl
@[simp] theorem State.setPois_cls (a : Nat) (p : Bool) : (s.setPois a p).cls = s.cls := rfl
@[simp] theorem State.setPois_tre (a : Nat) (p : Bool) : (s.setPois a p).tre = s.tre := rfl
@[simp] theorem State.setPois_ramp (a : Nat) (p : Bool) : (s.setPois a p).ramp = s.ramp := rfl
@[simp] theorem State.setPois_fry (a : Nat) (p : Bool) : (s.setPois a p).fry = s.fry := rfl
@[simp] theorem State.setPois_wch (a : Nat) (p : Bool) : (s.setPois a p).wch = s.wch := rfl
@[simp] theorem State.setPois_log (a : Nat) (p : Bool) : (s.setPois a p).log = s.log := rfl
@[simp] theorem State.setPois_inj (a : Nat) (p : Bool) : (s.setPois a p).inj = s.inj := rfl

/-! ### updSem -/

@[simp] theorem State.updSem_tally (d n : Nat) (f : Sem → Sem) : (s.updSem d n f).tally = s.tally := rfl
@[simp] theorem State.updSem_pending (d n : Nat) (f : Sem → Sem) : (s.updSem d n f).pending = s.pending := rfl
@[simp] theorem State.updSem_fresh (d n : Nat) (f : Sem → Sem) : (s.updSem d n f).fresh = s.fresh := rfl
@[simp] theorem State.updSem_lag (d n : Nat) (f : Sem → Sem) : (s.updSem d n f).lag = s.lag := rfl
@[simp] theorem State.updSem_clk (d n : Nat) (f : Sem → Sem) : (s.updSem d n f).clk = s.clk := rfl
@[simp] theorem State.updSem_pins (d n : Nat) (f : Sem → Sem) : (s.updSem d n f).pins = s.pins := rfl
@[simp] theorem State.updSem_cnt (d n : Nat) (f : Sem → Sem) : (s.updSem d n f).cnt = s.cnt := rfl
@[simp] theorem State.updSem_lnd (d n : Nat) (f : Sem → Sem) : (s.updSem d n f).lnd = s.lnd := rfl
@[simp] theorem State.updSem_man (d n : Nat) (f : Sem → Sem) : (s.updSem d n f).man = s.man := rfl
@[simp] theorem State.updSem_dsp (d n : Nat) (f : Sem → Sem) : (s.updSem d n f).dsp = s.dsp := rfl
@[simp] theorem State.updSem_tt (d n : Nat) (f : Sem → Sem) : (s.updSem d n f).tt = s.tt := rfl
@[simp] theorem State.updSem_pil (d n : Nat) (f : Sem → Sem) : (s.updSem d n f).pil = s.pil := rfl
@[simp] theorem State.updSem_tok (d n : Nat) (f : Sem → Sem) : (s.updSem d n f).tok = s.tok := rfl
@[simp] theorem State.updSem_txt (d n : Nat) (f : Sem → Sem) : (s.updSem d n f).txt = s.txt := rfl
@[simp] theorem State.updSem_cls (d n : Nat) (f : Sem → Sem) : (s.updSem d n f).cls = s.cls := rfl
@[simp] theorem State.updSem_tre (d n : Nat) (f : Sem → Sem) : (s.updSem d n f).tre = s.tre := rfl
@[simp] theorem State.updSem_ramp (d n : Nat) (f : Sem → Sem) : (s.updSem d n f).ramp = s.ramp := rfl
@[simp] theorem State.updSem_mem (d n : Nat) (f : Sem → Sem) : (s.updSem d n f).mem = s.mem := rfl
@[simp] theorem State.updSem_fry (d n : Nat) (f : Sem → Sem) : (s.updSem d n f).fry = s.fry := rfl
@[simp] theorem State.updSem_wch (d n : Nat) (f : Sem → Sem) : (s.updSem d n f).wch = s.wch := rfl
@[simp] theorem State.updSem_log (d n : Nat) (f : Sem → Sem) : (s.updSem d n f).log = s.log := rfl
@[simp] theorem State.updSem_inj (d n : Nat) (f : Sem → Sem) : (s.updSem d n f).inj = s.inj := rfl

/-! ### updInst -/

@[simp] theorem State.updInst_tally (i : Nat) (f : GInst → GInst) : (s.updInst i f).tally = s.tally := by
  unfold State.updInst; split <;> rfl
@[simp] theorem State.updInst_pending (i : Nat) (f : GInst → GInst) : (s.updInst i f).pending = s.pending := by
  unfold State.updInst; split <;> rfl
@[simp] theorem State.updInst_fresh (i : Nat) (f : GInst → GInst) : (s.updInst i f).fresh = s.fresh := by
  unfold State.updInst; split <;> rfl
@[simp] theorem State.updInst_lag (i : Nat) (f : GInst → GInst) : (s.updInst i f).lag = s.lag := by
  unfold State.updInst; split <;> rfl
@[simp] theorem State.updInst_clk (i : Nat) (f : GInst → GInst) : (s.updInst i f).clk = s.clk := by
  unfold State.updInst; split <;> rfl
@[simp] theorem State.updInst_pins (i : Nat) (f : GInst → GInst) : (s.updInst i f).pins = s.pins := by
  unfold State.updInst; split <;> rfl
@[simp] theorem State.updInst_cnt (i : Nat) (f : GInst → GInst) : (s.updInst i f).cnt = s.cnt := by
  unfold State.updInst; split <;> rfl
@[simp] theorem State.updInst_lnd (i : Nat) (f : GInst → GInst) : (s.updInst i f).lnd = s.lnd := by
  unfold State.updInst; split <;> rfl
@[simp] theorem State.updInst_man (i : Nat) (f : GInst → GInst) : (s.updInst i f).man = s.man := by
  unfold State.updInst; split <;> rfl
@[simp] theorem State.updInst_doms (i : Nat) (f : GInst → GInst) : (s.updInst i f).doms = s.doms := by
  unfold State.updInst; split <;> rfl
@[simp] theorem State.updInst_tt (i : Nat) (f : GInst → GInst) : (s.updInst i f).tt = s.tt := by
  unfold State.updInst; split <;> rfl
@[simp] theorem State.updInst_pil (i : Nat) (f : GInst → GInst) : (s.updInst i f).pil = s.pil := by
  unfold State.updInst; split <;> rfl
@[simp] theorem State.updInst_tok (i : Nat) (f : GInst → GInst) : (s.updInst i f).tok = s.tok := by
  unfold State.updInst; split <;> rfl
@[simp] theorem State.updInst_txt (i : Nat) (f : GInst → GInst) : (s.updInst i f).txt = s.txt := by
  unfold State.updInst; split <;> rfl
@[simp] theorem State.updInst_cls (i : Nat) (f : GInst → GInst) : (s.updInst i f).cls = s.cls := by
  unfold State.updInst; split <;> rfl
@[simp] theorem State.updInst_tre (i : Nat) (f : GInst → GInst) : (s.updInst i f).tre = s.tre := by
  unfold State.updInst; split <;> rfl
@[simp] theorem State.updInst_ramp (i : Nat) (f : GInst → GInst) : (s.updInst i f).ramp = s.ramp := by
  unfold State.updInst; split <;> rfl
@[simp] theorem State.updInst_mem (i : Nat) (f : GInst → GInst) : (s.updInst i f).mem = s.mem := by
  unfold State.updInst; split <;> rfl
@[simp] theorem State.updInst_fry (i : Nat) (f : GInst → GInst) : (s.updInst i f).fry = s.fry := by
  unfold State.updInst; split <;> rfl
@[simp] theorem State.updInst_wch (i : Nat) (f : GInst → GInst) : (s.updInst i f).wch = s.wch := by
  unfold State.updInst; split <;> rfl
@[simp] theorem State.updInst_log (i : Nat) (f : GInst → GInst) : (s.updInst i f).log = s.log := by
  unfold State.updInst; split <;> rfl
@[simp] theorem State.updInst_inj (i : Nat) (f : GInst → GInst) : (s.updInst i f).inj = s.inj := by
  unfold State.updInst; split <;> rfl

/-! ### count -/

@[simp] theorem State.count_tally (b ev n : Nat) : (s.count b ev n).tally = s.tally := by
  unfold State.count; split <;> rfl
@[simp] theorem State.count_pending (b ev n : Nat) : (s.count b ev n).pending = s.pending := by
  unfold State.count; split <;> rfl
@[simp] theorem State.count_fresh (b ev n : Nat) : (s.count b ev n).fresh = s.fresh := by
  unfold State.count; split <;> rfl
@[simp] theorem State.count_lag (b ev n : Nat) : (s.count b ev n).lag = s.lag := by
  unfold State.count; split <;> rfl
@[simp] theorem State.count_clk (b ev n : Nat) : (s.count b ev n).clk = s.clk := by
  unfold State.count; split <;> rfl
@[simp] theorem State.count_pins (b ev n : Nat) : (s.count b ev n).pins = s.pins := by
  unfold State.count; split <;> rfl
@[simp] theorem State.count_lnd (b ev n : Nat) : (s.count b ev n).lnd = s.lnd := by
  unfold State.count; split <;> rfl
@[simp] theorem State.count_man (b ev n : Nat) : (s.count b ev n).man = s.man := by
  unfold State.count; split <;> rfl
@[simp] theorem State.count_doms (b ev n : Nat) : (s.count b ev n).doms = s.doms := by
  unfold State.count; split <;> rfl
@[simp] theorem State.count_dsp (b ev n : Nat) : (s.count b ev n).dsp = s.dsp := by
  unfold State.count; split <;> rfl
@[simp] theorem State.count_tt (b ev n : Nat) : (s.count b ev n).tt = s.tt := by
  unfold State.count; split <;> rfl
@[simp] theorem State.count_pil (b ev n : Nat) : (s.count b ev n).pil = s.pil := by
  unfold State.count; split <;> rfl
@[simp] theorem State.count_tok (b ev n : Nat) : (s.count b ev n).tok = s.tok := by
  unfold State.count; split <;> rfl
@[simp] theorem State.count_txt (b ev n : Nat) : (s.count b ev n).txt = s.txt := by
  unfold State.count; split <;> rfl
@[simp] theorem State.count_cls (b ev n : Nat) : (s.count b ev n).cls = s.cls := by
  unfold State.count; split <;> rfl
@[simp] theorem State.count_tre (b ev n : Nat) : (s.count b ev n).tre = s.tre := by
  unfold State.count; split <;> rfl
@[simp] theorem State.count_ramp (b ev n : Nat) : (s.count b ev n).ramp = s.ramp := by
  unfold State.count; split <;> rfl
@[simp] theorem State.count_mem (b ev n : Nat) : (s.count b ev n).mem = s.mem := by
  unfold State.count; split <;> rfl
@[simp] theorem State.count_fry (b ev n : Nat) : (s.count b ev n).fry = s.fry := by
  unfold State.count; split <;> rfl
@[simp] theorem State.count_wch (b ev n : Nat) : (s.count b ev n).wch = s.wch := by
  unfold State.count; split <;> rfl
@[simp] theorem State.count_log (b ev n : Nat) : (s.count b ev n).log = s.log := by
  unfold State.count; split <;> rfl
@[simp] theorem State.count_inj (b ev n : Nat) : (s.count b ev n).inj = s.inj := by
  unfold State.count; split <;> rfl

/-! ### issuing -/

@[simp] theorem State.issuing_tally (n : Nat) : (s.issuing n).tally = s.tally := by
  simp [State.issuing]
@[simp] theorem State.issuing_pending (n : Nat) : (s.issuing n).pending = s.pending := by
  simp [State.issuing]
@[simp] theorem State.issuing_fresh (n : Nat) : (s.issuing n).fresh = s.fresh := by
  simp [State.issuing]
@[simp] theorem State.issuing_lag (n : Nat) : (s.issuing n).lag = s.lag := by
  simp [State.issuing]
@[simp] theorem State.issuing_clk (n : Nat) : (s.issuing n).clk = s.clk := by
  simp [State.issuing]
@[simp] theorem State.issuing_pins (n : Nat) : (s.issuing n).pins = s.pins := by
  simp [State.issuing]
@[simp] theorem State.issuing_lnd (n : Nat) : (s.issuing n).lnd = s.lnd := by
  simp [State.issuing]
@[simp] theorem State.issuing_man (n : Nat) : (s.issuing n).man = s.man := by
  simp [State.issuing]
@[simp] theorem State.issuing_doms (n : Nat) : (s.issuing n).doms = s.doms := by
  simp [State.issuing]
@[simp] theorem State.issuing_dsp (n : Nat) : (s.issuing n).dsp = s.dsp := by
  simp [State.issuing]
@[simp] theorem State.issuing_tt (n : Nat) : (s.issuing n).tt = s.tt := by
  simp [State.issuing]
@[simp] theorem State.issuing_pil (n : Nat) : (s.issuing n).pil = s.pil := by
  simp [State.issuing]
@[simp] theorem State.issuing_tok (n : Nat) : (s.issuing n).tok = s.tok := by
  simp [State.issuing]
@[simp] theorem State.issuing_txt (n : Nat) : (s.issuing n).txt = s.txt := by
  simp [State.issuing]
@[simp] theorem State.issuing_cls (n : Nat) : (s.issuing n).cls = s.cls := by
  simp [State.issuing]
@[simp] theorem State.issuing_tre (n : Nat) : (s.issuing n).tre = s.tre := by
  simp [State.issuing]
@[simp] theorem State.issuing_ramp (n : Nat) : (s.issuing n).ramp = s.ramp := by
  simp [State.issuing]
@[simp] theorem State.issuing_mem (n : Nat) : (s.issuing n).mem = s.mem := by
  simp [State.issuing]
@[simp] theorem State.issuing_fry (n : Nat) : (s.issuing n).fry = s.fry := by
  simp [State.issuing]
@[simp] theorem State.issuing_wch (n : Nat) : (s.issuing n).wch = s.wch := by
  simp [State.issuing]
@[simp] theorem State.issuing_log (n : Nat) : (s.issuing n).log = s.log := by
  simp [State.issuing]
@[simp] theorem State.issuing_inj (n : Nat) : (s.issuing n).inj = s.inj := by
  simp [State.issuing]

/-! ### Reading back what an update wrote -/

@[simp] theorem State.entry_setEntry (i : Nat) (e : Entry) : (s.setEntry i e).entry i = e := by
  simp [State.entry, State.setEntry]
theorem State.entry_setEntry_other (i k : Nat) (e : Entry) (h : k ≠ i) : (s.setEntry i e).entry k = s.entry k := by
  simp [State.entry, State.setEntry, Tab.get_set_other _ _ _ _ h]
@[simp] theorem State.domOf_setDom (d : Nat) (x : Domain) : (s.setDom d x).domOf d = x := by
  simp [State.domOf, State.setDom]
theorem State.domOf_setDom_other (d k : Nat) (x : Domain) (h : k ≠ d) : (s.setDom d x).domOf k = s.domOf k := by
  simp [State.domOf, State.setDom, Tab.get_set_other _ _ _ _ h]
@[simp] theorem State.slot_setSlot (i : Nat) (x : Slot) : (s.setSlot i x).slot i = x := by
  simp [State.slot, State.setSlot]
theorem State.slot_setSlot_other (i k : Nat) (x : Slot) (h : k ≠ i) : (s.setSlot i x).slot k = s.slot k := by
  simp [State.slot, State.setSlot, Tab.get_set_other _ _ _ _ h]
@[simp] theorem State.job_setJob (i : Nat) (j : Option Job) : (s.setJob i j).job i = j := by
  simp [State.job, State.setJob]
theorem State.slot_setJob_other (i k : Nat) (j : Option Job) (h : k ≠ i) : (s.setJob i j).slot k = s.slot k := by
  simp [State.setJob, s.slot_setSlot_other _ _ _ h]
@[simp] theorem State.slot_words_setJob (i : Nat) (j : Option Job) : ((s.setJob i j).slot i).words = (s.slot i).words := by
  simp [State.setJob]
@[simp] theorem State.slot_gen_setJob (i : Nat) (j : Option Job) : ((s.setJob i j).slot i).gen = (s.slot i).gen := by
  simp [State.setJob]
@[simp] theorem State.inst_setInst (i : Nat) (g : GInst) : (s.setInst i g).inst i = some g := by
  simp [State.inst, State.setInst]
theorem State.inst_setInst_other (i k : Nat) (g : GInst) (h : k ≠ i) : (s.setInst i g).inst k = s.inst k := by
  simp [State.inst, State.setInst, Tab.get_set_other _ _ _ _ h]
@[simp] theorem State.port_setPort (p : Nat) (x : Port) : (s.setPort p x).port p = x := by
  simp [State.port, State.setPort]
@[simp] theorem State.ttc_setTtc (c : Nat) (x : TtClass) : (s.setTtc c x).ttc c = x := by
  simp [State.ttc, State.setTtc]
@[simp] theorem State.group_setGroup (g : Nat) (x : Group) : (s.setGroup g x).group g = x := by
  simp [State.group, State.setGroup]
theorem State.group_setGroup_other (g k : Nat) (x : Group) (h : k ≠ g) : (s.setGroup g x).group k = s.group k := by
  simp [State.group, State.setGroup, putAt_other _ _ _ _ _ h]

@[simp] theorem State.setPort_bytes (p : Nat) (x : Port) : (s.setPort p x).mem.bytes = s.mem.bytes := rfl
@[simp] theorem State.setPois_bytes (a : Nat) (p : Bool) : (s.setPois a p).mem.bytes = s.mem.bytes := rfl
@[simp] theorem State.wr_bytes (a : Nat) (bs : List Byte) : (s.wr a bs).mem.bytes = memWrite s.mem.bytes a bs := rfl
@[simp] theorem State.wr_en (a : Nat) (bs : List Byte) : (s.wr a bs).mem.en = s.mem.en := rfl

/-! ### Registers and predicates of a job -/

@[simp] theorem Job.reg_zero (j : Job) : j.reg 0 = ⟨0, false⟩ := rfl
theorem Job.reg_setReg_same (j : Job) (r : Nat) (v : Word) (p : Bool) (h : r ≠ 0) : (j.setReg r v p).reg r = ⟨v, p⟩ := by
  simp [Job.reg, Job.setReg, h]
theorem Job.reg_setReg_other (j : Job) (r k : Nat) (v : Word) (p : Bool) (h : k ≠ r) : (j.setReg r v p).reg k = j.reg k := by
  unfold Job.setReg
  split
  · rfl
  · simp [Job.reg, putAt_other _ _ _ _ _ h]

end Sys2Proof.Machine
end

