-- ==== Sys2Proof/Laws/Ops.lean ====
section
/-! SUPPORT. Ops.lean (laws): what each shared operation can do, said once: the way to a command's stamp, a control-network write, the
acceptance of a command, a completion, a notice. Later proofs cite these and unfold none of the operations. -/

namespace Sys2Proof.Machine

variable (s : State)

/-! ### The tally (00 R11; 16 R365; log entry 1) -/

theorem State.setTally_tally (t : Stamp) : (s.setTally t).tally = max t s.tally := by
  unfold State.setTally
  split
  · next h => exact (Nat.max_eq_right h).symm
  · next h =>
    exact (Nat.max_eq_left (Nat.le_of_not_le h)).symm

/-- Moving the tally changes the tally and the counters alone. -/
theorem State.setTally_frame (t : Stamp) : { s.setTally t with tally := s.tally, cnt := s.cnt } = s := by
  unfold State.setTally
  split <;> rfl

@[simp] theorem State.setTally_mem (t : Stamp) : (s.setTally t).mem = s.mem := by unfold State.setTally; split <;> rfl
@[simp] theorem State.setTally_lnd (t : Stamp) : (s.setTally t).lnd = s.lnd := by unfold State.setTally; split <;> rfl
@[simp] theorem State.setTally_man (t : Stamp) : (s.setTally t).man = s.man := by unfold State.setTally; split <;> rfl
@[simp] theorem State.setTally_tok (t : Stamp) : (s.setTally t).tok = s.tok := by unfold State.setTally; split <;> rfl
@[simp] theorem State.setTally_pil (t : Stamp) : (s.setTally t).pil = s.pil := by unfold State.setTally; split <;> rfl
@[simp] theorem State.setTally_dsp (t : Stamp) : (s.setTally t).dsp = s.dsp := by unfold State.setTally; split <;> rfl
@[simp] theorem State.setTally_clk (t : Stamp) : (s.setTally t).clk = s.clk := by unfold State.setTally; split <;> rfl
@[simp] theorem State.setTally_fry (t : Stamp) : (s.setTally t).fry = s.fry := by unfold State.setTally; split <;> rfl
@[simp] theorem State.setTally_wch (t : Stamp) : (s.setTally t).wch = s.wch := by unfold State.setTally; split <;> rfl
@[simp] theorem State.setTally_log (t : Stamp) : (s.setTally t).log = s.log := by unfold State.setTally; split <;> rfl
@[simp] theorem State.setTally_doms (t : Stamp) : (s.setTally t).doms = s.doms := by unfold State.setTally; split <;> rfl
@[simp] theorem State.setTally_pending (t : Stamp) : (s.setTally t).pending = s.pending := by unfold State.setTally; split <;> rfl

/-- With no transfer in the path, no event of the Ramp and no message that waits, only the tally moves on the way to a stamp. -/
theorem State.upTo_empty (t : Stamp) (key : Nat) (h : s.tok.path = []) (hd : s.ramp.due = []) (hw : s.lnd.wait = []) :
    s.upTo t key = s.setTally t := by
  have h1 : s.drain = s := by unfold State.drain; rw [hw]; rfl
  unfold State.upTo
  rw [h1, State.rounds, h, hd]
  split <;> rfl

/-- Outside service no stage is applied. -/
theorem State.upTo_stopped (t : Stamp) (key : Nat) (h : s.running = false) : s.upTo t key = s.setTally t := by
  unfold State.upTo
  rw [h]
  rfl

/-! ### A control-network write (12 R274, R276) -/

theorem onWrite_alive {t : Stamp} {s : State} (f : State → State) (h : (s.upTo t 0).alive = true) (hp : (s.upTo t 0).portFree = true) :
    onWrite t s f = .next ((f (s.upTo t 0)).respond 0) := by
  simp [onWrite, h, hp]

theorem onWrite_dead {t : Stamp} {s : State} (f : State → State) (h : (s.upTo t 0).alive = false) :
    onWrite t s f = .next (s.upTo t 0) := by
  simp [onWrite, h]

/-- While something else has the port at this edge, the access does not transfer. -/
theorem onWrite_taken {t : Stamp} {s : State} (f : State → State) (h : (s.upTo t 0).portFree = false) :
    onWrite t s f = .next (s.upTo t 0) := by
  simp [onWrite, h]

/-- A write answers a next state, whatever the state. -/
theorem onWrite_next (t : Stamp) (f : State → State) : ∃ v, onWrite t s f = .next v := by
  unfold onWrite
  dsimp only
  split <;> exact ⟨_, rfl⟩

/-! ### Accepting a command (11 R242) -/

/-- The word n of a message of one cell. -/
theorem Msg.word_cell (m : CellWords) (b : BitVec 8) (n : Nat) (h : n < 8) : Msg.word [(m, b)] n = wordOf m n := by
  have h1 : n / 8 = 0 := by omega
  have h2 : n % 8 = n := by omega
  simp [Msg.word, wordOf, h1, h2]

theorem State.Heads.judge {u : State} {op : Nat} {m : CellWords} {rest : List CqCell} (h : u.Heads op m rest)
    (ho : cmdOps.contains op = true) : u.judgeMsg [(m, 0)] = .command op := by
  obtain ⟨_, _, _, _, _, _, _, h6, h7, h8, h9, h10, h11⟩ := h
  unfold State.judgeMsg
  rw [Msg.word_cell m 0 0 (by omega)]
  dsimp only
  rw [h6, h7, h8, h9, h10, h11]
  simpa using ho

theorem State.Heads.accepts {u : State} {op : Nat} {m : CellWords} {rest : List CqCell} (h : u.Heads op m rest) :
    u.accepts = true := by
  obtain ⟨h1, h2, h3, h4, _⟩ := h
  simp [State.accepts, h1, h2, h3, h4]

/-- The command that stands in a cell accepted in u. -/
def cmdOf (u : State) (m : CellWords) : Cmd := ⟨u.lnd.nextId, fld (wordOf m 0) 16 8, m⟩

/-- What a command at the head of the queue does, where its unit does not wait: it leaves the queue, its completion is reserved, and its
meaning f acts, or, where it requires DOM 0 and carries another, it completes with PRIV. -/
theorem onCommandWhen_heads {t : Stamp} {op : Nat} {zero : Bool} {wait : State → Cmd → Bool} {s : State} {f : State → Cmd → State}
    {m : CellWords} {rest : List CqCell} (h : (s.upTo t 0).Heads op m rest) (ho : cmdOps.contains op = true)
    (hw : wait (s.upTo t 0) (cmdOf (s.upTo t 0) m) = false) :
    onCommandWhen t op zero wait s f =
      let u := s.upTo t 0
      let c := cmdOf u m
      let b := u.begin rest op (fld (wordOf m 0) 40 16) c.dom []
      if zero ∧ c.dom ≠ 0 then .next (b.complete c.id stPRIV []) else .next (f b c) := by
  have hq : (s.upTo t 0).lnd.cq = .cell m true 0 :: rest := h.2.2.2.2.2.2.1
  unfold cmdOf at hw ⊢
  unfold onCommandWhen
  dsimp only
  rw [hq]
  simp only [headMsg, if_true]
  rw [h.judge ho, h.accepts, Msg.word_cell m 0 0 (by omega)]
  simp [hw]

/-- A command that waits for nothing. -/
theorem onCommand_heads {t : Stamp} {op : Nat} {zero : Bool} {s : State} {f : State → Cmd → State} {m : CellWords} {rest : List CqCell}
    (h : (s.upTo t 0).Heads op m rest) (ho : cmdOps.contains op = true) :
    onCommand t op zero s f =
      let u := s.upTo t 0
      let c := cmdOf u m
      let b := u.begin rest op (fld (wordOf m 0) 40 16) c.dom []
      if zero ∧ c.dom ≠ 0 then .next (b.complete c.id stPRIV []) else .next (f b c) :=
  onCommandWhen_heads h ho rfl

/-- A command answers a next state, whatever the queue holds. -/
theorem onCommandWhen_next (t : Stamp) (op : Nat) (zero : Bool) (wait : State → Cmd → Bool) (f : State → Cmd → State) :
    ∃ v, onCommandWhen t op zero wait s f = .next v := by
  unfold onCommandWhen
  dsimp only
  split
  · exact ⟨_, rfl⟩
  · split
    · exact ⟨_, rfl⟩
    · split
      · exact ⟨_, rfl⟩
      · split <;> exact ⟨_, rfl⟩

theorem onCommand_next (t : Stamp) (op : Nat) (zero : Bool) (f : State → Cmd → State) : ∃ v, onCommand t op zero s f = .next v :=
  onCommandWhen_next s t op zero _ f

/-! ### Completions and notices (11 R240, R244, R245) -/

theorem nqLevelIrq_lnd (n : Nat) : (nqLevelIrq n s).lnd = s.lnd := by
  unfold nqLevelIrq
  split
  · exact State.irq_lnd s s.tally
  · rfl

/-- Where none waits and no slot may still be forfeited, a message enters the queue at once; a message about a request, or a completion,
needs only that none waits. -/
theorem State.post_now {m : WaitMsg} (hw : s.lnd.wait = []) (hr : (m.block = false ∧ m.isFence = false) ∨ s.atRisk = []) :
    s.post m = s.enter m := by
  have h : s.mustWait m = false := by
    unfold State.mustWait State.forfeitAhead
    rw [hw]
    rcases hr with ⟨h1, h2⟩ | h
    · simp [h1, h2]
    · simp [h]
  unfold State.post
  rw [h]
  rfl

/-- A completion: its cell joins the notice queue, and its reservation alone ends. -/
theorem State.complete_lnd {id : Nat} {o : OpenCmd} (status : Nat) (ws : List Word) (h : s.OpenIs id o) :
    (s.complete id status ws).lnd = { s.lnd with
      opens := s.lnd.opens.filter fun q => q.id ≠ id
      nq := s.lnd.nq ++ [⟨padTo 8 ([hdrW0 o.op 1 s.clk.blkNum o.dom 0 status o.tag, BitVec.ofNat 64 o.stamp,
        BitVec.ofNat 64 s.tally] ++ ws), true, true, false, false⟩] } := by
  obtain ⟨h1, h2⟩ := h
  have ho : s.cmdOpen id = true := by
    unfold State.cmdOpen
    rw [h2]
    simp only [List.any_nil, Bool.not_false, Bool.and_true, List.any_eq_true]
    exact ⟨o, List.mem_of_find?_eq_some h1, by simpa using List.find?_some h1⟩
  unfold State.complete
  rw [ho, if_pos rfl, State.post_now s h2 (.inl ⟨rfl, rfl⟩)]
  unfold State.enter State.putDone
  dsimp only
  rw [h1]
  simp [nqLevelIrq_lnd]

/-- With no such open command nothing happens. -/
theorem State.complete_none {id : Nat} (status : Nat) (ws : List Word) (h : s.cmdOpen id = false) : s.complete id status ws = s := by
  unfold State.complete
  rw [h]
  rfl

/-- A notice that finds room is stored whole. -/
theorem State.putNotice_room {cs : List CellWords} {t : Stamp} (h : s.lnd.nq.length + s.lnd.opens.length + cs.length ≤ 2047) :
    (s.putNotice cs t).lnd = { s.lnd with nq := s.lnd.nq ++ tagCells cs } := by
  have h' : ¬ s.lnd.nq.length + nqReserved s.lnd + cs.length > 2047 := by unfold nqReserved; omega
  unfold State.putNotice
  simp only [h', if_false]
  simp [nqLevelIrq_lnd]

/-- One that does not is dropped whole, into a gap marker. -/
theorem State.putNotice_full {cs : List CellWords} {t : Stamp} (h : 2047 < s.lnd.nq.length + s.lnd.opens.length + cs.length) :
    (s.putNotice cs t).lnd = { s.lnd with nq := gapNotice s t, dropped := (s.lnd.dropped + 1) % 2 ^ 32 } := by
  have h' : s.lnd.nq.length + nqReserved s.lnd + cs.length > 2047 := by unfold nqReserved; omega
  unfold State.putNotice
  simp only [h', if_true]
  simp [nqLevelIrq_lnd]

/-- A message that enters changes the Landing, the interrupt line and the counters alone. -/
theorem State.enter_frame (m : WaitMsg) : { s.enter m with lnd := s.lnd, cnt := s.cnt, pins := s.pins } = s := by
  have hd : ∀ id st d ws, { s.putDone id st d ws with lnd := s.lnd, cnt := s.cnt, pins := s.pins } = s := by
    intro id st d ws
    unfold State.putDone nqLevelIrq
    split
    · rfl
    · dsimp only
      split <;> simp [State.count, State.irq]
  unfold State.enter
  split
  · unfold State.putNotice nqLevelIrq
    dsimp only
    split <;> split <;> simp [State.count, State.irq]
  · exact hd ..
  · exact hd ..

/-- So does one that is raised, whether it enters or waits. -/
theorem State.post_frame (m : WaitMsg) : { s.post m with lnd := s.lnd, cnt := s.cnt, pins := s.pins } = s := by
  unfold State.post
  split
  · rfl
  · exact State.enter_frame s m

theorem State.noteCells_frame (cs : List CellWords) (t : Stamp) :
    { s.noteCells cs t with lnd := s.lnd, cnt := s.cnt, pins := s.pins } = s := State.post_frame s _

theorem State.complete_frame (id status : Nat) (ws : List Word) :
    { s.complete id status ws with lnd := s.lnd, cnt := s.cnt, pins := s.pins } = s := by
  unfold State.complete
  split
  · exact State.post_frame s _
  · rfl

end Sys2Proof.Machine
end

