-- ==== Sys2Proof/Laws/Salm.lean ====
section
/-! SUPPORT. Salm.lean (laws): what the issue of a Salm instruction does (09 R200, R201; 10 R207), and what writing one register
or predicate of the issuing job leaves. -/

namespace Sys2Proof.Machine

/-- An instruction that issues does what its body says of its job, for which data of earlier loads to what it writes are dropped. -/
theorem State.issue_eq {u : State} {slot : Nat} {j : Job} {f : BitVec 26} {g : Nat × Bool} {reads writes : List Nat} {legal : Bool}
    {body : State → Job → Eff} (h : u.Issues slot j f g reads writes) (hl : legal = true) :
    u.issue slot f legal g reads writes body =
      match body (u.issuing slot) (j.overwrite writes) with
      | .held => u
      | .fault c => (u.issuing slot).jobFault slot c 0 u.tally
      | .next s' j' => s'.setJob slot (some { j' with pc := j.pc + ilen f })
      | .jump s' j' pc => s'.setJob slot (some { j' with pc := pc })
      | .gone s' => s' := by
  obtain ⟨h1, h2, h3, h4, h5, h6, h6'⟩ := h
  have h7 : ¬ j.pc + ilen f > 4 * j.nword := by omega
  have h8 : (reads.any fun r => j.busy r) = false := by
    rw [List.any_eq_false]
    intro r hr
    simp [h6 r hr]
  have h9 : (writes.any fun r => j.busyWr r) = false := by
    rw [List.any_eq_false]
    intro r hr
    simp [h6' r hr]
  unfold State.issue
  simp only [h1, h2, h3, h5, h7, h8, h9, hl, Bool.not_true, ne_eq, not_true_eq_false, decide_false, Bool.or_self,
    Bool.false_eq_true, if_false] <;>
  (cases body (u.issuing slot) (j.overwrite writes) <;> rfl)

@[simp] theorem Job.overwrite_regs (j : Job) (rs : List Nat) : (j.overwrite rs).regs = j.regs := rfl
@[simp] theorem Job.overwrite_preds (j : Job) (rs : List Nat) : (j.overwrite rs).preds = j.preds := rfl
@[simp] theorem Job.overwrite_pc (j : Job) (rs : List Nat) : (j.overwrite rs).pc = j.pc := rfl
@[simp] theorem Job.overwrite_calls (j : Job) (rs : List Nat) : (j.overwrite rs).calls = j.calls := rfl
@[simp] theorem Job.reg_overwrite (j : Job) (rs : List Nat) (r : Nat) : (j.overwrite rs).reg r = j.reg r := rfl
@[simp] theorem Job.pred_overwrite (j : Job) (rs : List Nat) (p : Nat) : (j.overwrite rs).pred p = j.pred p := rfl
/-- An instruction that writes nothing drops nothing. -/
@[simp] theorem Job.overwrite_nil (j : Job) : j.overwrite [] = j := by
  simp [Job.overwrite]

theorem State.slot_issuing (s : State) (n k : Nat) : (s.issuing n).slot k = s.slot k := by
  simp [State.slot]

theorem State.byte_issuing (s : State) (n k : Nat) : (s.issuing n).byte k = s.byte k := by
  simp [State.byte]

theorem onlyJob_setJob {u : State} {slot : Nat} (j' : Job) :
    OnlyJob u ((u.issuing slot).setJob slot (some j')) slot j' := by
  refine ⟨State.job_setJob _ _ _, ?_, ?_, ?_, ?_, ?_, ?_⟩
  · rw [State.slot_gen_setJob, State.slot_issuing]
  · rw [State.slot_words_setJob, State.slot_issuing]
  · intro k hk
    rw [State.slot_setJob_other _ _ _ _ hk, State.slot_issuing]
  · simp [State.setJob, State.setSlot]
  · simp [State.setJob, State.setSlot]
  · intro k _
    simp [State.byte]

/-- The state after a write of gd. -/
theorem writesReg_intro {u : State} {slot : Nat} {j : Job} {f : BitVec 26} (val : Word) (p : Bool) :
    WritesReg u ((u.issuing slot).setJob slot (some { (j.overwrite [fGD f]).setReg (fGD f) val p with pc := j.pc + ilen f }))
      slot j f val p := by
  refine ⟨_, onlyJob_setJob _, ⟨rfl, ?_, ?_⟩, ?_, rfl, by simp⟩
  · intro h
    exact Job.reg_setReg_same (j.overwrite [fGD f]) _ val p h
  · intro k h
    exact Job.reg_setReg_other (j.overwrite [fGD f]) _ k val p h
  · unfold Job.setReg
    split <;> rfl

theorem Job.pred_zero (j : Job) : j.pred 0 = true := rfl

theorem Job.pred_setPred_same (j : Job) (p : Nat) (b : Bool) (h : p ≠ 0) (hp : p < 8) : (j.setPred p b).pred p = b := by
  cases b <;>
    simp [Job.pred, Job.setPred, h, bitAt, hp]

theorem Job.pred_setPred_other (j : Job) (p k : Nat) (b : Bool) (h : k ≠ p) (hk : k < 8) :
    (j.setPred p b).pred k = j.pred k := by
  unfold Job.setPred
  split
  · rfl
  · cases b
    · simp [Job.pred, bitAt, hk]
      by_cases h1 : k < p <;> simp [h1]
      have h2 : k - p ≠ 0 := by omega
      simp [h2]
    · simp [Job.pred, bitAt, hk]
      by_cases h1 : k < p <;> simp [h1]
      have h2 : k - p ≠ 0 := by omega
      simp [h2]

/-- The state after a write of predicate p. -/
theorem writesPred_intro {u : State} {slot : Nat} {j : Job} {f : BitVec 26} (p : Nat) (b : Bool) (hp : p < 8) :
    WritesPred u ((u.issuing slot).setJob slot (some { j.setPred p b with pc := j.pc + ilen f })) slot j f p b := by
  refine ⟨_, onlyJob_setJob _, rfl, ?_, ?_, ?_, rfl, by simp⟩
  · intro h
    exact Job.pred_setPred_same j p b h hp
  · intro k hk hkp
    exact Job.pred_setPred_other j p k b hkp hk
  · unfold Job.setPred
    split <;> rfl

end Sys2Proof.Machine
end

