-- ==== Sys2Proof/Tests/Slice0.lean ====
section
/-! SUPPORT. Slice0.lean: tests on small states: an ill-formed term for each check, words written out bit by bit from the encodings,
one step of commands, and a state and operands that meet the hypotheses of each statement. -/

namespace Sys2Proof.Tests

open Sys2Proof.Machine

set_option Elab.async false

/-! ### Small states -/

/-- An epoch of two graphs, PGRAPH 0 and CGRAPH 1, every automaton in use, one vocabulary. -/
def epA : Epoch where
  num := 7
  live := true
  everAct := true
  image := 0
  gen := 1
  slotEn := 0xF
  kinds := [0, 1, 1, 1]
  start := ⟨1, 2, 3, 4⟩
  stopTok := 99
  vocab := 0
  pvocab := some 0
  tvocab := [none, none, none, none]
  redactTok := 50
  repl := [60, 61]
  gdir := 0x200000
  ngraph := 2
  pgraph := some 0
  cgraph := some 1
  models := []
  plans := []
  ens := []
  psets := []
  hdrBase := 0
  nhdr := 8
  poolBase := 0
  npool := 2
  masks := []
  vslots := [0]
  locals := []
  mwrap := false
  loadCmd := none

/-- Chunks of 4 tokens, windows of 100 microseconds, FLAG on a miss. -/
def rampA : RampSet := ⟨4, false, true, false, 100, 1⟩

/-- Domain 5: open, its epoch in slot 0 active. -/
def domA : Domain :=
  { Domain.init true with ramp := rampA, pmax := 1, formB := true, formT := true, active := some false, ep0 := some epA }

/-- The request of entry 3. -/
def hA : Handle := 0x00010003

/-- Entry 3: an answer of domain 5 with two pages. -/
def entA : Entry :=
  { Entry.init 1 with state := .answer, dom := 5, epoch := 7, committed := 2, plist := 0x120000, npage := 2 }

/-- The block in service with every unit enabled, domain 5 open and entry 3 in use. -/
def sA : State :=
  { State.reset with
    tally := 100
    fresh := 1
    clk := { State.reset.clk with talign := true }
    doms := [(0, Domain.init true), (5, domA)]
    man := { State.reset.man with en := true, entries := [(3, entA)], fresh := 4 }
    tok := { State.reset.tok with en := true, maskEn := true, specEn := true, states := [(3, ⟨1, 2, 3, 4⟩)] }
    ramp := { State.reset.ramp with en := true }
    txt := { State.reset.txt with en := true, pinEn := true }
    cls := { State.reset.cls with en := true }
    tre := { State.reset.tre with en := true, fen := true }
    dsp := { State.reset.dsp with en := true }
    lnd := { State.reset.lnd with en := true }
    mem := { State.reset.mem with
      en := true, win := 1
      rgns := [(0, ⟨true, true, true, 0, 0x10, 0, 1⟩), (1, ⟨true, false, true, 0x100000, 0x100, 5, 1⟩)]
      bytes := [(0x100000, 0x05), (0x100001, 0x01), (0x110000, 0x05), (0x110001, 0x01), (0x120000, 0x10), (0x120003, 0x05), (0x120004, 0x01),
        (0x120008, 0x11), (0x12000B, 0x05), (0x12000C, 0x01), (0x12000D, 0x01)] } }

/-- Task 0 is the verdict task, task 1 and 2 wait for nothing, task 3 for tasks 1 and 2. -/
def instA : GInst where
  handle := hA
  graph := 1
  answer := true
  k := 0
  parent := none
  depth := 0
  screen := false
  ntask := 4
  vtask := 0
  tasks := [⟨false, 3, false, 0, 0x300000, 0, 0⟩, ⟨false, 3, false, 0, 0x300000, 0, 9⟩, ⟨false, 3, false, 0, 0x300000, 0, 0⟩,
    ⟨false, 3, false, 0, 0x300000, 6, 0⟩]
  issued := 3
  done := 4
  skip := 0
  faulted := 0
  results := [(2, 0x1122334455667788)]
  verdict := none
  wend := 240100
  ntok := 2
  final := false
  met := 4
  ended := false
  ready := [(0, 50), (1, 50), (2, 50)]
  work := []
  passes := []

/-- A job of task 1: g5 = 40, g6 = 7, g7 poisoned; p1 true. -/
def jobA : Job where
  inst := 7
  task := 1
  handle := hA
  dom := 5
  prio := 0
  elastic := false
  cls := 3
  prog := 0x300000
  nword := 100
  pc := 40
  regs := [⟨0, false⟩, ⟨9, false⟩, ⟨0, false⟩, ⟨2, false⟩, ⟨240100, false⟩, ⟨40, false⟩, ⟨7, false⟩, ⟨5, true⟩]
  preds := 2
  wins := [some 1, none, none, none]
  calls := []
  nextCall := 0
  ldms := []
  sems := []
  creds := []
  wait := .no
  ready := 50
  holdEnd := none
  lateAt := none
  stores := []
  specs := []

/-- Slot 2 runs jobA; word 5 of its scratch is live. -/
def slotA : Slot := ⟨some jobA, 1, [(5, ⟨0x8877665544332211, 1, false, true⟩)], 0⟩

/-- sA with the job in slot 2 and its instance. -/
def sJ : State :=
  { sA with
    pil := { sA.pil with slots := [(2, slotA)] }
    dsp := { sA.dsp with insts := [(7, instA)] } }

/-- Fields of formats A, B, C and D without the opcode (09 R203, R204). -/
def fA (x gd ga gb p pn fn : Nat) : BitVec 26 :=
  BitVec.ofNat 26 (x * 2 ^ 25 + gd * 2 ^ 20 + ga * 2 ^ 15 + gb * 2 ^ 10 + p * 2 ^ 7 + pn * 2 ^ 6 + fn)
def fB (x gd ga p pn imm : Nat) : BitVec 26 :=
  BitVec.ofNat 26 (x * 2 ^ 25 + gd * 2 ^ 20 + ga * 2 ^ 15 + p * 2 ^ 12 + pn * 2 ^ 11 + imm)

/-- The state that a command leaves. -/
def nx (o : Host.Outcome State Fault Refusal) : State :=
  match o with
  | .next v => v
  | _ => State.reset

/-- The state in which an event with stamp 120 acts: of a port, of the subsystem k, of Salm. -/
def u0 (s : State) : State := s.upTo 120 0
def uk (k : Nat) (s : State) : State := s.upTo 120 (kSub k)
def u1 (s : State) : State := uk 5 s

/-- sJ with another job in slot 2. -/
def withJob (j : Job) (s : State := sJ) : State := s.setJob 2 (some j)

/-- sJ with its instance changed. -/
def withInst (g : GInst) (s : State := sJ) : State := { s with dsp := { s.dsp with insts := [(7, g)] } }

/-- Register n of the job in slot 2, and its PC. -/
def regOf (s : State) (n : Nat) : Option (Word × Bool) := (s.job 2).map fun j => ((j.reg n).val, (j.reg n).pois)
def pcOf (s : State) : Option Nat := (s.job 2).map Job.pc

/-- The cause in the JOB_FAULT notice that stands first for the host (09 R200, 11 R240). -/
def causeOf (s : State) : Option Nat := s.lnd.nq.head?.map fun c => fld (wordOf c.words 3) 0 8

/-! ### Ill-formed commands are refused, one for each check -/

theorem test_wf_stamp : (Instr.closeTime (2 ^ 64) 3).wf = false ∧ (Instr.closeTime (2 ^ 64 - 1) 3).wf = true := by decide
theorem test_wf_ext : (Instr.addi 0 2 (fB 0 6 5 0 0 1) 7).wf = false ∧ (Instr.addi 0 2 (fB 1 6 5 0 0 1) 7).wf = true := by decide
theorem test_wf_payload : (Instr.state 0 1 ⟨0, 0, 0, true, []⟩ 5 []).wf = false ∧
    (Instr.state 0 1 ⟨0, 0, 0, true, []⟩ 5 (List.replicate 241 0)).wf = false ∧
    (Instr.state 0 1 ⟨0, 0, 0, true, []⟩ 5 (List.replicate 240 0)).wf = true := by decide +kernel
theorem test_wf_mirror : (Instr.mirror 0 1 ⟨0, 0, 0, true, []⟩ 0 0xFFFF [1, 2]).wf = false ∧
    (Instr.mirror 0 1 ⟨0, 0, 0, true, []⟩ 0 0xFFFE [1, 2]).wf = true := by decide
theorem test_wf_kind : (Instr.swapped 0 7 0).wf = false ∧ (Instr.swapped 0 6 0).wf = true := by decide
theorem test_wf_read : (Instr.badRegAccess 0 false 0 5).wf = false ∧ (Instr.badRegAccess 0 true 0 5).wf = true := by decide

/-! ### Words of the Salm encoding (09 R203–R205), field by field: opcode, X, and the fields of the format -/

/-- Format A: ALU g6 = g5 - g3 under p1. -/
theorem test_word_alu : salmDecode 9 2 (0x01#6 ++ 0#1 ++ 6#5 ++ 5#5 ++ 3#5 ++ 1#3 ++ 0#1 ++ 0x01#6) 0 =
    .alu 9 2 (fA 0 6 5 3 1 0 1) 0 ∧
    fGD (fA 0 6 5 3 1 0 1) = 6 ∧ fGA (fA 0 6 5 3 1 0 1) = 5 ∧ fGB (fA 0 6 5 3 1 0 1) = 3 ∧ fFN (fA 0 6 5 3 1 0 1) = 1 ∧
    guardA (fA 0 6 5 3 1 0 1) = (1, false) := by decide
/-- Format B: ADDI g6 = g5 - 1 unless p2. -/
theorem test_word_addi : salmDecode 9 2 (0x02#6 ++ 0#1 ++ 6#5 ++ 5#5 ++ 2#3 ++ 1#1 ++ 0x7FF#11) 0 =
    .addi 9 2 (fB 0 6 5 2 1 0x7FF) 0 ∧ guardB (fB 0 6 5 2 1 0x7FF) = (2, true) ∧ immB (fB 0 6 5 2 1 0x7FF) 0 = -1 := by
  decide
/-- Format B with its extension word: the immediate is the word with IMM below it. -/
theorem test_word_li : salmDecode 9 2 (0x08#6 ++ 1#1 ++ 6#5 ++ 0#5 ++ 0#3 ++ 0#1 ++ 0x003#11) 0x80000000 =
    .li 9 2 (fB 1 6 0 0 0 3) 0x80000000 ∧ immB (fB 1 6 0 0 0 3) 0x80000000 = 0xFFFFFC0000000003 := by decide
theorem test_word_cmpi : salmDecode 9 2 (0x0C#6 ++ 0#1 ++ 0b01011#5 ++ 5#5 ++ 0#3 ++ 0#1 ++ 0x028#11) 0 =
    .cmpi 9 2 (fB 0 11 5 0 0 40) 0 := by decide
theorem test_word_fpu : salmDecode 9 2 (0x0E#6 ++ 0#1 ++ 6#5 ++ 5#5 ++ 3#5 ++ 0#3 ++ 0#1 ++ 0x02#6) 0 =
    .fpu 9 2 (fA 0 6 5 3 0 0 2) 0 := by decide
/-- Format D: ST of 4 bytes of g6 at g5 - 4. -/
theorem test_word_st : salmDecode 9 2 (0x12#6 ++ 0#1 ++ 6#5 ++ 5#5 ++ 0#3 ++ 0#1 ++ 0b10#2 ++ 0x1FF#9) 0 =
    .st 9 2 (fB 0 6 5 0 0 0x5FF) 0 ∧ fSZ (fB 0 6 5 0 0 0x5FF) = 2 ∧ offD (fB 0 6 5 0 0 0x5FF) 0 = -4 := by decide
/-- Format C: BR back by one word under p3. -/
theorem test_word_br : salmDecode 9 2 (0x18#6 ++ 0#1 ++ 3#3 ++ 0#1 ++ 0x1FFFFF#21) 0 = .br 9 2 0xDFFFFF#26 0 ∧
    guardC 0xDFFFFF#26 = (3, false) := by decide
theorem test_word_classify : salmDecode 9 2 (0x24#6 ++ 0#1 ++ 6#5 ++ 5#5 ++ 3#5 ++ 0#3 ++ 0#1 ++ 0x01#6) 0 =
    .classify 9 2 (fA 0 6 5 3 0 0 1) 0 := by decide
/-- An opcode that R205 marks — issues as TRAP's word with that opcode. -/
theorem test_word_reserved : salmDecode 9 2 (0x1A#6 ++ 5#26) 0 = .trap 9 2 0x68000005 0 ∧
    salmDecode 9 2 (0x1F#6 ++ 0#26) 0 = .trap 9 2 0x7C000000 0 := by decide

/-! ### Salm instructions: one step, and operands that meet the hypotheses of each statement -/

theorem wit_StepKeepsSound : State.reset.Sound ∧ sJ.Sound := by unfold State.Sound State.MemSound State.CmdsSound; decide
theorem wit_StepKeepsTables : State.reset.TabsSound ∧ sJ.TabsSound := by unfold State.TabsSound Rising; decide
theorem wit_SalmRoundTrip :
    salmParts (.addi 9 2 (fB 0 6 5 0 0 1) 0) = some (0x02, 9, 2, fB 0 6 5 0 0 1, 0) ∧ fX (fB 0 6 5 0 0 1) = false ∧
    salmParts (.addi 9 2 (fB 1 6 5 0 0 1) 7) = some (0x02, 9, 2, fB 1 6 5 0 0 1, 7) ∧ fX (fB 1 6 5 0 0 1) = true := ⟨rfl, rfl, rfl, rfl⟩
theorem wit_NodeMemoryReadWrite : sJ.MemSound := by unfold State.MemSound; decide

/-- ALU subtraction, R209; the PC moves on by one word. -/
theorem test_alu : regOf (nx (exec (.alu 120 2 (fA 0 6 5 3 0 0 1) 0) sJ)) 6 = some (38, false) ∧
    pcOf (nx (exec (.alu 120 2 (fA 0 6 5 3 0 0 1) 0) sJ)) = some 44 := by decide
/-- A write of g0 leaves it zero, and a poisoned source poisons the result (R189, R191). -/
theorem test_alu_g0 : regOf (nx (exec (.alu 120 2 (fA 0 0 5 3 0 0 1) 0) sJ)) 0 = some (0, false) ∧
    regOf (nx (exec (.alu 120 2 (fA 0 6 7 3 0 0 1) 0) sJ)) 6 = some (3, true) := by decide
/-- A guard that fails, R201. -/
theorem test_alu_guard : regOf (nx (exec (.alu 120 2 (fA 0 6 5 3 2 0 1) 0) sJ)) 6 = some (7, false) ∧
    pcOf (nx (exec (.alu 120 2 (fA 0 6 5 3 2 0 1) 0) sJ)) = some 44 := by decide
theorem test_addi : regOf (nx (exec (.addi 120 2 (fB 0 6 5 0 0 0x7FF) 0) sJ)) 6 = some (39, false) := by decide
theorem test_andi : regOf (nx (exec (.andi 120 2 (fB 0 6 5 0 0 0x00C) 0) sJ)) 6 = some (8, false) := by decide
theorem test_ori : regOf (nx (exec (.ori 120 2 (fB 0 6 5 0 0 0x003) 0) sJ)) 6 = some (43, false) := by decide
theorem test_xori : regOf (nx (exec (.xori 120 2 (fB 0 6 5 0 0 0x7FF) 0) sJ)) 6 = some (-41, false) := by decide
/-- An arithmetic right shift of -40 by 3 (IMM[7:6] 10). -/
theorem test_shi : regOf (nx (exec (.shi 120 2 (fB 0 6 5 0 0 0x083) 0) (withJob (jobA.setReg 5 (-40) false)))) 6 = some (-5, false) := by
  decide
/-- Division by zero gives all ones, and the remainder the dividend (R211). -/
theorem test_muldiv : regOf (nx (exec (.muldiv 120 2 (fA 0 6 5 0 0 0 3) 0) sJ)) 6 = some (-1, false) ∧
    regOf (nx (exec (.muldiv 120 2 (fA 0 6 5 0 0 0 6) 0) sJ)) 6 = some (40, false) := by decide
theorem test_lih : regOf (nx (exec (.lih 120 2 (fB 0 6 0 0 0 1) 0) sJ)) 6 = some (0x100000007, false) := by decide
/-- EXTR of 4 bits from bit 3 of 40 (R205). -/
theorem test_extr : regOf (nx (exec (.extr 120 2 (fB 0 6 5 0 0 (3 * 64 + 3)) 0) sJ)) 6 = some (5, false) := by decide
theorem test_cmp : ((nx (exec (.cmp 120 2 (fA 0 3 6 5 0 0 2) 0) sJ)).job 2).map (fun j => (j.pred 3, j.pred 1)) =
    some (true, true) := by decide
theorem test_plog : ((nx (exec (.plog 120 2 (fA 0 3 1 2 0 0 3) 0) sJ)).job 2).map (fun j => j.pred 3) = some true := by decide
/-- 1.5 + 2.25 = 3.75, and a product that overflows is infinite. -/
theorem test_fpu : fadd 0x3FC00000 0x40100000 = 0x40700000 ∧ fmul 0x7F000000 0x40800000 = 0x7F800000 ∧
    fdiv 0x3F800000 0x40400000 = 0x3EAAAAAB ∧ fsqrt 0x40000000 = 0x3FB504F3 := by decide +kernel
theorem test_fcmp : ((nx (exec (.fcmp 120 2 (fA 0 3 6 5 0 0 3) 0) (withJob (jobA.setReg 6 0x7FC00000 false)))).job 2).map
    (fun j => j.pred 3) = some true := by decide

theorem wit_ImmediatesWriteGd : (u1 sJ).Issues 2 jobA (fB 0 6 5 0 0 0x7FF) (guardB (fB 0 6 5 0 0 0x7FF)) [5] [6] ∧
    (u1 sJ).Issues 2 jobA (fB 1 6 0 0 0 3) (guardB (fB 1 6 0 0 0 3)) [] [6] ∧ fGA (fB 1 6 0 0 0 3) = 0 := by unfold State.Issues; decide
theorem wit_ImmediatesWriteGd_shifts : (∀ m : Fin 3, let f := fB 0 6 5 0 0 (m * 64 + 63);
      (u1 sJ).Issues 2 jobA f (guardB f) [fGA f] [fGD f] ∧ fX f = false ∧ (f.extractLsb' 6 5).toNat = m) ∧
    (let f := fB 0 6 5 0 0 0x7FF;
      (u1 sJ).Issues 2 jobA f (guardB f) [fGA f] [fGD f] ∧ fX f = false ∧ (f.extractLsb' 6 5).toNat < 32) := by
  unfold State.Issues; decide
theorem wit_AluWritesGd : (let f := fA 0 6 5 6 0 0 1;
      (u1 sJ).Issues 2 jobA f (guardA f) [fGA f, fGB f] [fGD f] ∧ gbOk f = true ∧ ¬ 0x0D ≤ fFN f ∧ fFN f = 1 ∧
        jobA.val (fGA f) = 40 ∧ (jobA.op2 f 0).val = 7) ∧
    (let f := fA 0 6 5 0 0 0 0x0E;
      (u1 sJ).Issues 2 jobA f (guardA f) [fGA f, fGB f] [fGD f] ∧ gbOk f = true ∧ oneOp f = true ∧ fFN f = 0x0E ∧
        jobA.val (fGA f) = 40) ∧
    (let f := fA 1 6 5 0 0 0 0x08;
      (u1 sJ).Issues 2 jobA f (guardA f) [fGA f, fGB f] [fGD f] ∧ gbOk f = true ∧ fFN f = 8 ∧
        jobA.val (fGA f) = 40 ∧ (jobA.op2 f 2).val = 2) := by unfold State.Issues; decide
/-- The values of these three: 40 - 7, the leading zeros of 40, 40 shifted right by 2. -/
theorem wit_AluWritesGd_values : AluValue 1 40 7 33 ∧ AluValue 0x0E 40 0 58 ∧ AluValue 8 40 2 10 := by
  refine ⟨?_, ?_, ?_⟩
  · show (33 : Word) = 40 - 7
    decide
  · show (58 : Word).toNat ≤ 64 ∧ (∀ i, i < 58 → (40 : Word).getLsbD (63 - i) = false) ∧ (58 < 64 → (40 : Word).getLsbD (63 - 58) = true)
    decide
  · show (10 : Word) = (40 : Word).sshiftRight 2
    decide
theorem wit_MulDivWritesGd : (u1 sJ).Issues 2 jobA (fA 0 6 5 6 0 0 5) (guardA (fA 0 6 5 6 0 0 5)) [5, 6] [6] ∧
    gbOk (fA 0 6 5 6 0 0 5) = true ∧ MulDivValue 5 (jobA.val 5) (jobA.op2 (fA 0 6 5 6 0 0 5) 0).val 5 := by
  refine ⟨?_, by decide, ?_⟩
  · unfold State.Issues; decide
  · exact (by decide : (5 : Word) = if (7 : Word) = 0 then 40 else BitVec.srem 40 7)
theorem wit_ComparesSetPredicate : (let f := fA 0 7 6 5 0 0 2;
      (u1 sJ).Issues 2 jobA f (guardA f) [fGA f, fGB f] [] ∧ gbOk f = true ∧ fGD f < 8 ∧ (jobA.reg (fGA f)).pois = false ∧
        (jobA.op2 f 0).pois = false ∧ fFN f = 2 ∧ jobA.val (fGA f) = 7 ∧ (jobA.op2 f 0).val = 40) ∧
    (let f := fA 0 0 6 5 0 0 3;
      (u1 sJ).Issues 2 jobA f (guardA f) [fGA f, fGB f] [] ∧ gbOk f = true ∧ fGD f < 8 ∧ (jobA.reg (fGA f)).pois = false ∧
        (jobA.op2 f 0).pois = false ∧ fFN f = 3) ∧
    (let f := fB 0 11 5 0 0 40;
      (u1 sJ).Issues 2 jobA f (guardB f) [fGA f] [] ∧ (jobA.reg (fGA f)).pois = false ∧
        ([0x00, 0x01, 0x02, 0x04].getD (fGD f / 8) 0 : Nat) = 1 ∧ jobA.val (fGA f) = 40 ∧ immB f 0 = 40) ∧
    (let f := fA 0 3 1 0 0 0 4;
      (u1 sJ).Issues 2 jobA f (guardA f) [] [] ∧ fX f = false ∧ fGD f < 8 ∧ fGA f < 8 ∧ fGB f < 8 ∧ fFN f ≤ 4 ∧ fGB f = 0) := by
  unfold State.Issues; decide
/-- 7 is below 40, neither is a NaN, and 40 is not unlike 40. -/
theorem wit_ComparesSetPredicate_values : CmpValue 2 7 40 (true = true) ∧ CmpValue 1 40 40 (false = true) ∧
    FcmpValue 3 7 40 (false = true) := by
  refine ⟨?_, ?_, ?_⟩
  · show true = true ↔ (7 : Word).toInt < (40 : Word).toInt
    decide
  · show false = true ↔ (40 : Word) ≠ 40
    decide
  · show false = true ↔ (f32Nan 7 ∨ f32Nan 40)
    unfold f32Nan
    decide
theorem wit_FpuWritesGd : (let f := fA 0 6 5 6 0 0 5;
      (u1 sJ).Issues 2 jobA f (guardA f) [fGA f, fGB f] [fGD f] ∧ gbOk f = true ∧ ¬ f32Nan 40 ∧ ¬ f32Nan 7 ∧ f32Scaled 7 < f32Scaled 40) ∧
    (let f := fA 0 6 5 0 0 0 8;
      (u1 sJ).Issues 2 jobA f (guardA f) [fGA f, fGB f] [fGD f] ∧ gbOk f = true ∧ oneOp f = true ∧
        -(2 ^ 212) < f32Scaled 40 ∧ f32Scaled 40 < 2 ^ 212) ∧
    (f32Nan 0x7FC00000 ∧ ¬ f32Nan 0x5F000000 ∧ 2 ^ 212 ≤ f32Scaled 0x5F000000 ∧ ¬ f32Nan 0xDF000000 ∧ f32Scaled 0xDF000000 ≤ -(2 ^ 212)) := by
  unfold State.Issues f32Nan; decide
theorem wit_BinaryRoundsToNearest : let a : F32 := 0x3F800000
    let b : F32 := 0x7F7FFFFF
    a.extractLsb' 23 8 ≠ 255 ∧ b.extractLsb' 23 8 ≠ 255 ∧
      ((f32Scaled a + f32Scaled a).natAbs : Int) < (2 ^ 24 * 2 - 1) * 2 ^ 252 * 1 ∧
      (2 ^ 24 * 2 - 1) * 2 ^ 252 * 1 ≤ f32Scaled b + f32Scaled b ∧
      f32Scaled 0xFF7FFFFF + f32Scaled 0xFF7FFFFF ≤ -((2 ^ 24 * 2 - 1) * 2 ^ 252 * 1) := by decide +kernel

/-- LD of the live word 5 of scratch, of byte 2 of it, and of a stale word (R190). -/
theorem test_ld : regOf (nx (exec (.ld 120 2 (fB 0 6 5 0 0 0x600) 0) sJ)) 6 = some (0x8877665544332211, false) ∧
    regOf (nx (exec (.ld 120 2 (fB 0 6 5 0 0 2) 0) sJ)) 6 = some (0x33, false) := by decide
theorem test_ld_stale : regOf (nx (exec (.ld 120 2 (fB 0 6 5 0 0 8) 0) sJ)) 6 = some (0, true) := by decide
/-- LDS of the top byte of the live word. -/
theorem test_lds : regOf (nx (exec (.lds 120 2 (fB 0 6 5 0 0 7) 0) sJ)) 6 = some (0xFFFFFFFFFFFFFF88, false) := by decide
/-- ST of two bytes inside the live word; the rest of the word stands. -/
theorem test_st : Tab.get ((nx (exec (.st 120 2 (fB 0 6 5 0 0 0x201) 0) sJ)).slot 2).words 5 =
    some ⟨0x8877665500072211, 1, false, true⟩ := by decide
theorem test_st_wprot : causeOf (nx (exec (.st 120 2 (fB 1 6 0 0 0 0x600) 0x50) sJ)) = some 0x14 := by decide
theorem test_ld_align : causeOf (nx (exec (.ld 120 2 (fB 0 6 6 0 0 0x600) 0) sJ)) = some 0x12 := by decide
/-- LDM of an address in the domain's region puts its request on port 2. -/
theorem test_ldm : ((nx (exec (.ldm 120 2 (fB 0 6 5 0 0 0x600) 0) (withJob (jobA.setReg 5 0x100008 false)))).port 2).waitq.map
    (fun q => (q.write, q.line, q.who)) = [(false, 0x100000, .ldm 2 0 7)] := by decide

/-- The page of window 0. -/
def rW : Run := ⟨0x110000, 5, 1, 1, 0, 0, false⟩

/-- Word 0x10 of a mapped window's page. -/
def fWin : BitVec 26 := fB 1 6 0 0 0 0x608
theorem wit_LoadsWriteGd_scratch : let f := fB 0 6 5 0 0 0x600;
    (u1 sJ).Issues 2 jobA f (guardB f) [fGA f] [fGD f] ∧ (jobA.reg (fGA f)).pois = false ∧ (jobA.val (fGA f) + offD f 0).toNat = 40 ∧
      40 % 2 ^ fSZ f = 0 ∧ (u1 sJ).areaBusy jobA 40 8 false = false ∧ (u1 sJ).winTrip jobA 40 false = false ∧
      ((u1 sJ).slot 2).word 5 = some ⟨0x8877665544332211, 1, false, true⟩ ∧ ((u1 sJ).slot 2).word 6 = none := by
  unfold State.Issues; decide
theorem wit_LoadsWriteGd_window : (u1 sJ).Issues 2 jobA fWin (guardB fWin) [fGA fWin] [fGD fWin] ∧
    (jobA.val (fGA fWin) + offD fWin 0x10).toNat = 0x10040 ∧ (u1 sJ).areaBusy jobA 0x10040 8 false = false ∧
    (u1 sJ).winTrip jobA 0x10040 false = false ∧ (u1 sJ).winRun jobA 0 = some rW ∧
    (u1 sJ).pageOk 0x110000 5 1 = true ∧ (u1 sJ).unordered 2 0x110040 = [] := by unfold State.Issues; decide
/-- A page whose header names another generation. -/
theorem wit_LoadsWriteGd_page : let s := sJ.wr 0x110001 [2];
    (u1 s).Issues 2 jobA fWin (guardB fWin) [fGA fWin] [fGD fWin] ∧ (u1 s).winRun jobA 0 = some rW ∧
      (u1 s).pageOk 0x110000 5 1 = false := by unfold State.Issues; decide
/-- The result words of tasks 1, 2 and 5 of task 3. -/
theorem wit_LoadsWriteGd_results : let j := { jobA with task := 3 }
    let s := withJob j (withInst { instA with skip := 2 })
    let f := fB 1 6 0 0 0 0x601;
    (u1 s).Issues 2 j f (guardB f) [fGA f] [fGD f] ∧ (j.val (fGA f) + offD f 0x50).toNat = 0x50008 ∧
      (u1 s).areaBusy j 0x50008 8 false = false ∧ (u1 s).winTrip j 0x50008 false = false ∧
      (u1 s).inst 7 = some { instA with skip := 2 } ∧ instA.tasks[3]? = some ⟨false, 3, false, 0, 0x300000, 6, 0⟩ ∧
      bitAt (6 : Word) 2 = true ∧ bitAt (4 : Word) 2 = true ∧ bitAt (6 : Word) 1 = true ∧ bitAt (4 : Word) 1 = false ∧
      bitAt (2 : Word) 1 = true ∧ bitAt (6 : Word) 5 = false := by unfold State.Issues; decide
theorem wit_StoresWriteBytes : let f := fB 0 6 5 0 0 0x201;
    (u1 sJ).Sound ∧ (u1 sJ).Issues 2 jobA f (guardB f) [fGA f] [fGD f] ∧ (jobA.val (fGA f) + offD f 0).toNat = 42 ∧
      (u1 sJ).areaBusy jobA 42 2 true = false ∧ (u1 sJ).winTrip jobA 42 true = false := by
  unfold State.Issues State.Sound State.MemSound State.CmdsSound; decide
/-- The program area of the control page, mapped in window 1. -/
theorem wit_StoresWriteBytes_window : let j := { jobA with wins := [some 1, some 0, none, none] };
    let s := withJob j;
    let f := fB 1 6 0 0 0 0x600;
    let r : Run := ⟨0x100000, 5, 1, 0, 0, 0, false⟩;
    (u1 s).Issues 2 j f (guardB f) [fGA f] [fGD f] ∧ (j.val (fGA f) + offD f 0x28).toNat = 0x28000 ∧
      (u1 s).areaBusy j 0x28000 8 true = false ∧ (u1 s).winTrip j 0x28000 true = false ∧ (u1 s).winRun j 1 = some r ∧
      (u1 s).pageOk 0x100000 5 1 = true ∧ r.prog 0x8000 = true ∧ (u1 s).unordered 2 0x108000 = [] := by unfold State.Issues; decide
theorem wit_LdmRequests : (let j := jobA.setReg 5 0x100008 false;
      let f := fB 0 6 5 0 0 0x600;
      (u1 (withJob j)).Issues 2 j f (guardB f) [fGA f] [fGD f] ∧ (j.val (fGA f) + offD f 0).toNat = 0x100008 ∧
        (u1 (withJob j)).access 5 0x100008 8 false true = true ∧ j.ldms.length < 8) ∧
    (let j := jobA.setReg 5 0x4000000 false;
      let f := fB 0 6 5 0 0 0x600;
      (u1 (withJob j)).Issues 2 j f (guardB f) [fGA f] [fGD f] ∧ (j.val (fGA f) + offD f 0).toNat = 0x4000000 ∧
        (u1 (withJob j)).access 5 0x4000000 8 false true = false) ∧
    (let f := fB 0 6 6 0 0 0x600;
      (u1 sJ).Issues 2 jobA f (guardB f) [fGA f] [fGD f] ∧ (jobA.val (fGA f) + offD f 0).toNat % 8 ≠ 0) := by
  unfold State.Issues; decide

theorem test_mapw : ((nx (exec (.mapw 120 2 (fA 0 0 0 3 0 0 0) 0) (withJob (jobA.setReg 3 1 false)))).job 2).map Job.wins =
    some [some 1, some 0, none, none] := by decide
/-- RDS of the stamp counter. -/
theorem test_rds : regOf (nx (exec (.rds 120 2 (fA 0 6 0 0 0 0 2) 0) sJ)) 6 = some (120, false) := by decide
theorem test_post : ((nx (exec (.post 120 2 (fA 0 0 5 0 0 0 0) 0) sJ)).inst 7).map (fun g => Tab.get g.results 1) = some (some 40) := by
  decide
/-- SKIP of tasks 1, 2 and 3: task 1 is issued and the verdict task is never skipped. -/
theorem test_skip : ((nx (exec (.skipTasks 120 2 (fA 0 0 5 0 0 0 0) 0) (withJob (jobA.setReg 5 0xF false)))).inst 7).map
    (fun g => g.skip) = some 0xC := by decide
theorem test_br : pcOf (nx (exec (.br 120 2 0x1FFFFE#26 0) sJ)) = some 32 := by decide
theorem test_jal : regOf (nx (exec (.jal 120 2 (fA 1 6 5 0 0 0 0) 8) sJ)) 6 = some (48, false) ∧
    pcOf (nx (exec (.jal 120 2 (fA 1 6 5 0 0 0 0) 8) sJ)) = some 48 := by decide

theorem wit_MapReadFencePostSkip : (let j := jobA.setReg 3 3 false;
      let f := fA 0 0 0 3 0 0 0;
      fX f = false ∧ (u1 (withJob j)).Issues 2 j f (guardA f) [fGA f, fGB f] [] ∧ fGD f = 0 ∧ fFN f = 0 ∧ (j.reg (fGA f)).pois = false ∧
        (j.reg (fGB f)).pois = false ∧ (j.val (fGA f)).toNat < ((u1 (withJob j)).entry (hIdx j.handle)).npage ∧
        (j.val (fGB f)).toNat ≤ 3) ∧
    (∀ n : Fin 4, let f := fA 0 6 0 0 0 0 n;
      fX f = false ∧ (u1 sJ).Issues 2 jobA f (guardA f) [] [fGD f] ∧ fGA f = 0 ∧ fGB f = 0 ∧ fFN f = n) ∧
    (u1 sJ).inst 7 = some instA ∧
    (let f := fA 0 0 0 0 0 0 0;
      (u1 sJ).Issues 2 jobA f (guardA f) [] [] ∧ fGD f = 0 ∧ fGA f = 0 ∧ fGB f = 0 ∧ fFN f = 0) := by unfold State.Issues; decide
theorem wit_MapReadFencePostSkip_job : let f := fA 0 0 5 0 0 0 0;
    (u1 sJ).Issues 2 jobA f (guardA f) [fGA f] [] ∧ (u1 sJ).inst jobA.inst = some instA ∧ fX f = false ∧ fGD f = 0 ∧ fGB f = 0 ∧
      fFN f = 0 ∧ (jobA.reg (fGA f)).pois = false := by unfold State.Issues; decide
/-- BR back to word 0, before it, to the last word and behind it; JAL likewise. -/
theorem wit_BranchesJump : jobA.nword < 2 ^ 18 ∧
    (∀ k, k ∈ [0x1FFFF6, 0x1FFFF5, 89, 90] → (u1 sJ).Issues 2 jobA (BitVec.ofNat 26 k) (guardC (BitVec.ofNat 26 k)) [] [] ∧
      fX (BitVec.ofNat 26 k) = false) ∧
    (40 : Int) + 4 * ((0x1FFFF6#26).extractLsb' 0 21).toInt = 0 ∧ (40 : Int) + 4 * ((0x1FFFF5#26).extractLsb' 0 21).toInt < 0 ∧
    (40 : Int) + 4 * ((89#26).extractLsb' 0 21).toInt = 4 * 100 - 4 ∧ (40 : Int) + 4 * ((90#26).extractLsb' 0 21).toInt = 4 * 100 := by
  unfold State.Issues; decide
theorem wit_BranchesJump_untaken : jobA.pred (guardC 0x800000#26).1 = (guardC 0x800000#26).2 ∧ fX 0x800000#26 = false ∧
    jobA.pc + 4 ≤ 4 * jobA.nword ∧ (u1 sJ).running = true ∧
    (let f := fA 0 6 7 0 0 0 0; (u1 sJ).Issues 2 jobA f (guardA f) [fGA f, fGB f] [fGD f] ∧ gbOk f = true ∧ fFN f = 0 ∧
      (jobA.reg (fGA f)).pois = true) := by unfold State.Issues; decide
theorem wit_BranchesJump_jal : let f := fA 1 6 5 0 0 0 0;
    (u1 sJ).Issues 2 jobA f (guardA f) [fGA f, fGB f] [fGD f] ∧ gbOk f = true ∧ fFN f = 0 ∧ (jobA.reg (fGA f)).pois = false ∧
      (jobA.op2 f 0).pois = false ∧ (jobA.val (fGA f) + (jobA.op2 f 356).val).toNat = 4 * 100 - 4 ∧
      (jobA.val (fGA f) + (jobA.op2 f 360).val).toNat = 4 * 100 ∧ (jobA.val (fGA f) + (jobA.op2 f 1).val).toNat % 4 ≠ 0 := by
  unfold State.Issues; decide

/-- sJ with the words of a call block at scratch 40. -/
def wK (a : Nat) (w : Word) : Nat × SWord := (a, ⟨w, 1, false, true⟩)
def sK (j : Job := jobA) : State := sJ.setSlot 2 { slotA with job := some j, words := [wK 5 0x100, wK 6 0x20] }
/-- A call with its block at g5 and its output at g3. -/
def fK : BitVec 26 := fA 0 6 5 3 0 0 0
/-- A call that is outstanding. -/
def callA : Call := ⟨4, .matchOp, 6, 0x10000, 0x80, 0, false, false, 0, 90, none, none, false, ⟨[], none, [], 0⟩⟩

/-- A MATCH call waits for its unit with GD as its status register. -/
theorem test_match : ((nx (exec (.matchCall 120 2 fK 0) (sK))).job 2).map
    (fun j => j.calls) = some [⟨0, .matchOp, 6, 0x100, 0x20, 2, false, false, 0, 120, none, none, false, ⟨[], none, [], 0⟩⟩] := by decide
theorem test_classify_class : causeOf (nx (exec (.classify 120 2 fK 0) sK)) = some 5 := by decide
theorem test_xlate : ((nx (exec (.xlate 120 2 fK 0) (sK))).job 2).map (fun j => j.calls.map Call.op) = some [.xlate] := by decide
theorem test_feature : ((nx (exec (.feature 120 2 fK 0) (sK { jobA with cls := 2 }))).job 2).map
    (fun j => j.calls.map Call.op) = some [.feature] := by decide
theorem test_tree_link : causeOf (nx (exec (.treeCall 120 2 (fA 0 6 5 3 0 0 1) 0) (sK { jobA with cls := 2 }))) = some 4 := by decide
theorem test_wait : pcOf (nx (exec (.wait 120 2 (fA 0 0 0 0 0 0 0) 0) sJ)) = some 44 ∧
    pcOf (nx (exec (.wait 120 2 (fA 0 0 0 0 0 0 0) 0) (withJob { jobA with calls := [callA] }))) = some 40 := by decide

theorem wit_EngineCallsIssue : (u1 sK).Issues 2 jobA fK (guardA fK) [fGA fK, fGB fK, 2] [fGD fK] ∧ fX fK = false ∧ fFN fK ≤ 1 ∧
    (u1 sK).areaBusy jobA 40 16 false = false ∧ (u1 sK).classEn .matchOp = true ∧ CallOp.cls .matchOp = jobA.cls ∧
    (jobA.reg 5).pois = false ∧ (jobA.reg 3).pois = false ∧ jobA.val 5 = 40 ∧ jobA.calls.length < 4 ∧
    ((u1 sK).slot 2).word 5 = some ⟨0x100, 1, false, true⟩ ∧ ((u1 sK).slot 2).word 6 = some ⟨0x20, 1, false, true⟩ ∧
    ((u1 sK).slot 2).gen = 1 := by unfold State.Issues; decide
/-- Units fenced: all engines, all translation units, both front-stage units, both view builders with the view not built. -/
theorem wit_EngineCallsIssue_units : ∀ k : Fin 4,
    let op : CallOp := if k = 1 then .xlate else if k = 2 then .feature else .matchOp
    let j := if k = 2 then { jobA with cls := 2 } else jobA
    let s := sK j
    let s := if k = 3 then { s with dsp := { s.dsp with insts := [(7, { instA with answer := true })] } } else s
    let v : View := ⟨hA, 5, 1, (j.val 2).toNat, [17, 18], [], 0, [], [], false, false, 90, none, false, false⟩
    let u := u1 { s with txt := { s.txt with fenced := if k = 0 then 0xFFFF else if k = 1 then 0xF0000 else if k = 3 then 0x300000 else 0
                                             views := if k = 3 then [v] else s.txt.views }
                         tre := { s.tre with fst := if k = 2 then 3 else 0 } }
    u.Issues 2 j fK (guardA fK) [5, 3, 2] [6] ∧ u.areaBusy j 40 16 false = false ∧ u.classEn op = true ∧ op.cls = j.cls ∧
      u.unitsGone j op = true ∧ (u1 sK).unitsGone j op = false := by
  unfold State.Issues; decide
theorem test_match_fenced : causeOf (nx (exec (.matchCall 120 2 fK 0) { sK with txt := { sK.txt with fenced := 0xFFFF } })) = some 0x0A := by decide
/-- A unit that is off, another class, a poisoned register, a misaligned block, one behind the scratch, one with a stale word. -/
theorem wit_EngineCallsIssue_checks :
    (let s := { sK with txt := { sK.txt with en := false } };
      (u1 s).Issues 2 jobA fK (guardA fK) [5, 3, 2] [6] ∧ (u1 s).classEn .matchOp = false) ∧
    ((u1 sK).classEn .classify = true ∧ CallOp.cls .classify ≠ jobA.cls) ∧
    (let f := fA 0 6 7 3 0 0 0; (u1 sK).Issues 2 jobA f (guardA f) [7, 3, 2] [6] ∧ (jobA.reg (fGA f)).pois = true) ∧
    (let f := fA 0 6 6 3 0 0 0; (u1 sK).Issues 2 jobA f (guardA f) [6, 3, 2] [6] ∧ (jobA.val (fGA f)).toNat % 8 ≠ 0) ∧
    (let j := jobA.setReg 5 65528 false; (u1 (sK j)).Issues 2 j fK (guardA fK) [5, 3, 2] [6] ∧ 65536 < (j.val 5).toNat + 16) ∧
    ((u1 sJ).Issues 2 jobA fK (guardA fK) [5, 3, 2] [6] ∧ ((u1 sJ).slot 2).wordBad 5 = false ∧ ((u1 sJ).slot 2).wordBad 6 = true) := by
  unfold State.Issues; decide
/-- A TREE call with the link flag outside domain 0, one with four calls outstanding, one beside another call, and WAIT with none. -/
theorem wit_EngineCallsIssue_more :
    (let j := { jobA with cls := 2 };
      let f := fA 0 6 5 3 0 0 1;
      (u1 (sK j)).Issues 2 j f (guardA f) [5, 3, 2] [6] ∧ fFN f % 2 = 1 ∧ j.dom ≠ 0 ∧ ((u1 (sK j)).slot 2).wordBad 6 = false) ∧
    (let j := { jobA with calls := List.replicate 4 { callA with gd := 9 } };
      (u1 (sK j)).Issues 2 j fK (guardA fK) [5, 3, 2] [6] ∧ (u1 (sK j)).areaBusy j 40 16 false = false ∧ 4 ≤ j.calls.length) ∧
    (let j := { jobA with calls := [{ callA with gd := 9 }] };
      (u1 (sK j)).Issues 2 j fK (guardA fK) [5, 3, 2] [6] ∧ (u1 (sK j)).areaBusy j 40 16 false = false ∧
        ∀ d, d ∈ j.calls → overlap 2 ((u1 (sK j)).callAreas j callA).2 d.out ((u1 (sK j)).callAreas j d).2 = false) ∧
    (let f := fA 0 0 0 0 0 0 0; (u1 sJ).Issues 2 jobA f (guardA f) [] [] ∧ fX f = false ∧ jobA.calls = []) := by
  unfold State.Issues; decide

/-- The instance whose verdict task is the task of slot 2. -/
def instV : GInst := { instA with vtask := 1 }
def sV : State := withInst instV

theorem test_verdict : ((nx (exec (.verdict 120 2 (fA 1 0 0 0 0 0 0) 5) sV)).inst 7).map GInst.verdict = some (some 5) ∧
    ((nx (exec (.verdict 120 2 (fA 1 0 0 0 0 0 0) 5) sJ)).inst 7).map GInst.verdict = some none ∧
    causeOf (nx (exec (.verdict 120 2 (fA 1 0 0 0 0 0 0) 6) sV)) = some 0x1B := by decide
/-- The merge of FLAG over tokens 4–7 and FLAG over tokens 6–9 is FLAG over 4–9 (R232). -/
theorem test_vmerge : regOf (nx (exec (.vmerge 120 2 (fA 1 6 5 0 0 0 0) 0x4062) (withJob (jobA.setReg 5 0x4042 false)))) 6 =
    some (0x6042, false) := by decide
theorem wit_VerdictWords : (let f := fA 1 0 0 0 0 0 0;
      (u1 sV).Issues 2 jobA f (guardA f) [fGA f] [] ∧ (u1 sV).inst jobA.inst = some instV ∧ fGD f = 0 ∧ fFN f = 0 ∧ fGB f = 0 ∧
        fX f = true ∧ fGA f = 0 ∧ jobA.task = instV.vtask ∧ (u1 sJ).inst jobA.inst = some instA ∧ jobA.task ≠ instA.vtask ∧
        (5 : Word).toNat < 2 ^ 21 ∧ ((5 : Word).extractLsb' 0 3).toNat = 5 ∧ ((5 : Word).extractLsb' 12 9).toNat ≤ 256 ∧
        ((6 : Word).extractLsb' 0 3).toNat = 6 ∧ ((0x101002 : Word).extractLsb' 12 9).toNat = 257 ∧ ¬ (0x200000 : Word).toNat < 2 ^ 21) ∧
    (let f := fA 1 6 3 0 0 0 0;
      (u1 sV).Issues 2 jobA f (guardA f) [fGA f, fGB f] [fGD f] ∧ gbOk f = true ∧ fFN f = 0 ∧ (jobA.reg (fGA f)).pois = false ∧
        (jobA.op2 f 0x3002).pois = false ∧ jobA.val (fGA f) = 2 ∧ (jobA.op2 f 0x3002).val = 0x3002 ∧ (jobA.op2 f 1).val = 1) := by
  unfold State.Issues; decide

/-- The job holds semaphore 7, or another job does. -/
def jobS : Job := { jobA with sems := [7] }
def sS : State := (withJob jobS).updSem 5 7 fun _ => ⟨some 2, [], false⟩
def sS2 : State := sJ.updSem 5 7 fun _ => ⟨some 9, [4], false⟩
def fSem : BitVec 26 := fA 0 6 6 0 0 0 0

theorem test_semacq : ((nx (exec (.semacq 120 2 fSem 0) sJ)).domOf 5).sem 7 = ⟨some 2, [], false⟩ ∧
    regOf (nx (exec (.semacq 120 2 fSem 0) sS)) 6 = some (2, false) ∧
    ((nx (exec (.semacq 120 2 fSem 0) sS2)).domOf 5).sem 7 = ⟨some 9, [4, 2], false⟩ := by decide
theorem test_semrel : ((nx (exec (.semrel 120 2 (fA 0 0 6 0 0 0 0) 0) sS)).domOf 5).sem 7 = ⟨none, [], false⟩ ∧
    ((nx (exec (.semrel 120 2 (fA 0 0 6 0 0 0 0) 0) sS2)).domOf 5).sem 7 = ⟨some 9, [4], false⟩ := by decide
theorem wit_SemaphoresAcquireRelease : fX fSem = false ∧ fGB fSem = 0 ∧ fFN fSem = 0 ∧
    ((u1 sJ).Issues 2 jobA fSem (guardA fSem) [6] [6] ∧ (jobA.val 6).toNat = 7 ∧ ((u1 sJ).domOf 5).sem 7 = ⟨none, [], false⟩ ∧ 7 ∉ jobA.sems) ∧
    ((u1 sS).Issues 2 jobS fSem (guardA fSem) [6] [6] ∧ 7 ∈ jobS.sems) ∧
    ((u1 sS2).Issues 2 jobA fSem (guardA fSem) [6] [6] ∧ ((u1 sS2).domOf 5).sem 7 = ⟨some 9, [4], false⟩) ∧
    (let j := jobA.setReg 6 16 false; (u1 (withJob j)).Issues 2 j fSem (guardA fSem) [6] [6] ∧ 15 < (j.val 6).toNat) ∧
    (let f := fA 0 0 6 0 0 0 0; (u1 sS).Issues 2 jobS f (guardA f) [6] [] ∧ (u1 sJ).Issues 2 jobA f (guardA f) [6] []) := by
  unfold State.Issues; refine ⟨by decide, by decide, by decide, by decide, by decide, by decide, ?_⟩; decide

/-- Ferry group 2 is up, with its 64 credits, or with 30 and three more held by the job. -/
def sG : State := sJ.setGroup 2 { Group.init with phase := .up }
def jobG : Job := { jobA with creds := [(2, 3)] }
def sG2 : State := (sJ.setGroup 2 { Group.init with phase := .up, free := 30 }).setJob 2 (some jobG)
def fCr : BitVec 26 := fA 0 6 3 5 0 0 0

theorem test_cracq : ((nx (exec (.cracq 120 2 fCr 0) sG)).group 2).free = 24 ∧
    regOf (nx (exec (.cracq 120 2 fCr 0) sG)) 6 = some (0x280000, false) ∧
    ((nx (exec (.cracq 120 2 fCr 0) sG2)).group 2).waiters = [2] ∧
    causeOf (nx (exec (.cracq 120 2 fCr 0) sJ)) = some 0x1C := by decide
theorem test_crrel : ((nx (exec (.crrel 120 2 (fA 0 0 3 5 0 0 0) 0) sG2)).group 2).free = 33 := by decide
theorem wit_CreditsAcquireReturn : fX fCr = false ∧ fFN fCr = 0 ∧ (jobA.val 3).toNat = 2 ∧ (jobA.val 5).toNat = 40 ∧
    ((u1 sG).Issues 2 jobA fCr (guardA fCr) [3, 5] [6] ∧ ((u1 sG).group 2).isUp = true ∧ ((u1 sG).group 2).waiters = [] ∧
      40 ≤ ((u1 sG).group 2).free) ∧
    ((u1 sG2).Issues 2 jobG fCr (guardA fCr) [3, 5] [6] ∧ ((u1 sG2).group 2).isUp = true ∧ ((u1 sG2).group 2).free < 40) ∧
    ((u1 sJ).Issues 2 jobA fCr (guardA fCr) [3, 5] [6] ∧ ((u1 sJ).group 2).isUp = false) ∧
    (let j := jobA.setReg 5 65 false; (u1 (withJob j sG)).Issues 2 j fCr (guardA fCr) [3, 5] [6] ∧ 64 < (j.val 5).toNat) ∧
    (let f := fA 0 0 3 5 0 0 0; (u1 sG2).Issues 2 jobG f (guardA f) [3, 5] [] ∧ (u1 sJ).Issues 2 jobA f (guardA f) [3, 5] []) := by
  unfold State.Issues; refine ⟨by decide, by decide, by decide, by decide, by decide, by decide, by decide, ?_⟩; decide

/-- Pilot-class slots 16 microseconds long; the second belongs to domain 5 as the first does not. -/
def ttB : TtClass where
  words := [(0, 0x900010), (1, 0x00500010)]
  active := false
  av := true
  sw := none
  status := 0
  nslot0 := 2
  nslot1 := 0
  runlim := 0
  posSlot := 0
  posBank := false
  posAt := 0
  forfeits := 0
/-- An elastic job in a slot of another domain: due for pre-emption. -/
def jobE : Job := { jobA with elastic := true }
def sY (j : Job := jobE) : State := (withJob j).setTtc 0 ttB
def fY : BitVec 26 := fA 0 0 5 0 0 0 0

/-- YIELD saves the words below 64 bytes and frees the slot. -/
theorem test_yield : (nx (exec (.yield 120 2 fY 0) sY)).job 2 = none ∧
    ((Tab.get (nx (exec (.yield 120 2 fY 0) sY)).dsp.frames 0).map fun y => y.words.map fun p => p.1) = some [0, 1, 2, 3, 4, 5, 6, 7] ∧
    pcOf (nx (exec (.yield 120 2 fY 0) sJ)) = some 44 := by decide
/-- A deferred job is late from its YIELD on. -/
theorem test_yield_defers : ((nx (exec (.yield 120 2 fY 0) (sY { jobE with sems := [4] }))).job 2).map
    (fun j => (j.pc, j.lateAt, j.holdEnd)) = some (44, some 120, some (120 + 240 * (u1 sY).tt.holdlim)) := by decide
theorem test_note : ((nx (exec (.note 120 2 (fA 0 0 5 0 0 0 9) 0) sJ)).lnd.nq.map fun c => c.words.drop 4) = [[9, 40, 0, 0]] := by decide
theorem wit_YieldAndNote : fGD fY = 0 ∧ fGB fY = 0 ∧ fFN fY = 0 ∧ fX fY = false ∧ (jobA.reg (fGA fY)).pois = false ∧ jobA.ldms = [] ∧
    ((u1 sJ).Issues 2 jobA fY (guardA fY) [5] [] ∧ (u1 sJ).preemptDue 2 jobA 120 = false ∧ (u1 sJ).roomFor 1) ∧
    ((u1 sY).Issues 2 jobE fY (guardA fY) [5] [] ∧ (u1 sY).preemptDue 2 jobE 120 = true ∧ jobE.calls = [] ∧ jobE.holds = false ∧
      Tab.lowestFree (u1 sY).dsp.frames 0 = 0) ∧
    (let j := { jobE with calls := [callA] };
      (u1 (sY j)).Issues 2 j fY (guardA fY) [5] [] ∧ (u1 (sY j)).preemptDue 2 j 120 = true ∧ j.calls ≠ []) ∧
    (let j := { jobE with sems := [4] };
      (u1 (sY j)).Issues 2 j fY (guardA fY) [5] [] ∧ (u1 (sY j)).preemptDue 2 j 120 = true ∧ j.calls = [] ∧ j.holds = true) := by
  unfold State.Issues State.roomFor; decide

theorem test_trap : causeOf (nx (exec (.trap 120 2 0xCC000000 0) sJ)) = some 0x1D ∧ (nx (exec (.trap 120 2 0xCC000000 0) sJ)).dsp.insts = [] := by decide
theorem test_end : (nx (exec (.endJob 120 2 0 0) sJ)).job 2 = none ∧
    ((nx (exec (.endJob 120 2 0 0) sJ)).inst 7).map (fun g => g.done) = some 6 ∧
    causeOf (nx (exec (.endJob 120 2 0 0) sV)) = some 6 := by decide
theorem test_fence_salm : pcOf (nx (exec (.salmFence 120 2 0 0) sJ)) = some 44 := by decide
theorem wit_TrapAndEndLeaveSlot : fX 0 = false ∧ (u1 sJ).Issues 2 jobA 0 (guardA 0) [] [] ∧ fGD 0 = 0 ∧ fGA 0 = 0 ∧ fGB 0 = 0 ∧ fFN 0 = 0 ∧
    (u1 sJ).TabsSound ∧ (u1 sJ).roomFor 1 := by unfold State.Issues State.TabsSound Rising State.roomFor; decide
theorem wit_TrapAndEndLeaveSlot_end : ((u1 sJ).Issues 2 jobA 0 (guardA 0) [] [] ∧ jobA.calls = [] ∧ (u1 sJ).inst 7 = some instA ∧ jobA.task ≠ instA.vtask ∧
      ({ instA with done := instA.done ||| (1#64 <<< jobA.task) } : GInst).complete = false) ∧
    ((u1 sV).Issues 2 jobA 0 (guardA 0) [] [] ∧ (u1 sV).inst 7 = some instV ∧ jobA.task = instV.vtask ∧ instV.verdict = none) ∧
    (let g := { instV with verdict := some 5 }; (u1 (withInst g)).Issues 2 jobA 0 (guardA 0) [] [] ∧ (u1 (withInst g)).inst 7 = some g ∧
      g.verdict ≠ none) := by unfold State.Issues; decide
/-- No job, a suspended job, an instruction behind the program, one whose guard fails. -/
theorem wit_SalmGuardsAndBounds :
    salmParts (.alu 120 2 (fA 0 0 0 0 0 1 0) 0) = some (0x01, 120, 2, fA 0 0 0 0 0 1 0, 0) := rfl
theorem wit_SalmGuardsAndBounds_states : (u1 sA).job 2 = none ∧
    ((u1 (withJob { jobA with wait := .sem 3 90 6 })).job 2).map Job.wait ≠ some .no ∧
    ((u1 (withJob { jobA with pc := 400 })).job 2 = some { jobA with pc := 400 } ∧ (u1 (withJob { jobA with pc := 400 })).running = true ∧
      4 * jobA.nword < 400 + ilen (fA 0 0 0 0 0 1 0)) ∧
    ((u1 sJ).job 2 = some jobA ∧ jobA.wait = .no ∧ (u1 sJ).running = true ∧ 40 + ilen (fA 0 0 0 0 0 1 0) ≤ 4 * jobA.nword ∧
      legalForm 0x01 (fA 0 0 0 0 0 1 0) = true ∧
      jobA.pred (guardOf 0x01 (fA 0 0 0 0 0 1 0)).1 = (guardOf 0x01 (fA 0 0 0 0 0 1 0)).2) := by decide
/-- An encoding that is not legal, of each opcode about which a statement says that it faults with ILLEGAL: AluWritesGd (with FN 0x10, and
with GB of a single-operand function), MulDivWritesGd, ComparesSetPredicate, MapReadSpecialFence, BranchesJump, VerdictWords. -/
theorem wit_illegal_forms : ([(0x01#6, fA 0 6 5 6 0 0 0x10), (0x01#6, fA 0 6 5 6 0 0 0x0D), (0x07#6, fA 0 6 5 6 0 0 7),
      (0x0B#6, fA 0 8 5 6 0 0 0), (0x0D#6, fA 0 1 1 1 0 0 4), (0x0F#6, fA 0 1 5 6 0 0 4), (0x14#6, fA 0 1 5 6 0 0 0),
      (0x17#6, fA 0 6 0 0 0 0 4), (0x32#6, fA 0 1 0 0 0 0 0), (0x18#6, fA 1 0 0 0 0 0 0), (0x19#6, fA 1 6 5 1 0 0 0),
      (0x28#6, fA 0 0 5 1 0 0 0), (0x29#6, fA 0 6 5 6 0 0 1)].all fun p =>
    decide (legalForm p.1 p.2 = false ∧ (u1 sJ).running = true ∧ (u1 sJ).job 2 = some jobA ∧ jobA.wait = .no ∧
      jobA.pc + ilen p.2 ≤ 4 * jobA.nword)) = true := by decide +kernel
theorem test_illegal : causeOf (nx (exec (.alu 120 2 (fA 0 6 5 6 0 1 0x10) 0) sJ)) = some 0x10 ∧
    causeOf (nx (exec (.vmerge 120 2 (fA 0 6 5 6 0 0 1) 0) sJ)) = some 0x10 := by decide +kernel
/-- Addresses 0x50, 0x50000, 0x50200 and 0x20000, of 8 bytes each, and 7. -/
theorem wit_AddressAndPoisonFaults : (let f := fB 0 6 6 0 0 0x600; (u1 sJ).Issues 2 jobA f (guardB f) [6] [6] ∧ jobA.val 6 = 7) ∧
    (∀ x, x ∈ [(0x50, 0x50000, 0x600), (0x50, 0x501F8, 0x63F), (0x50, 0x50200, 0x640), (0x20, 0x20000, 0x600)] →
      (u1 sJ).Issues 2 jobA (fB 1 6 0 0 0 x.2.2) (guardB (fB 1 6 0 0 0 x.2.2)) [0, 6] [] ∧
      (jobA.val 0 + offD (fB 1 6 0 0 0 x.2.2) (BitVec.ofNat 32 x.1)).toNat = x.2.1) ∧
    (u1 sJ).winRun jobA 1 = none ∧ (∀ a, a ∈ [0x50000, 0x501F8, 0x50200, 0x20000] →
      (u1 sJ).areaBusy jobA a 8 true = false ∧ (u1 sJ).areaBusy jobA a 8 false = false) ∧
    (u1 sJ).winTrip jobA 0x10040 true = false ∧ (u1 sJ).winRun jobA 0 = some rW ∧ (u1 sJ).pageOk 0x110000 5 1 = true ∧
    rW.prog 0x40 = false := by unfold State.Issues; decide
theorem wit_AddressAndPoisonFaults_page : let s := sJ.wr 0x110001 [2];
    (u1 s).Issues 2 jobA fWin (guardB fWin) [0, 6] [] ∧ (u1 s).winTrip jobA 0x10040 true = false ∧ (u1 s).winRun jobA 0 = some rW ∧
      (u1 s).pageOk 0x110000 5 1 = false := by unfold State.Issues; decide
theorem wit_AddressAndPoisonFaults_poison : (let f := fA 0 6 7 3 0 0 0;
      (u1 sJ).Issues 2 jobA f (guardA f) [fGA f, fGB f] [fGD f] ∧ gbOk f = true ∧ (jobA.reg (fGA f)).pois = true ∧ fX f = false ∧ fFN f = 0) ∧
    (let f := fA 0 0 7 0 0 0 0;
      (u1 sJ).Issues 2 jobA f (guardA f) [fGA f] [fGD f] ∧ fX f = false ∧ fGB f = 0 ∧ fFN f = 0 ∧ (jobA.reg (fGA f)).pois = true) ∧
    (let f := fB 0 6 7 0 0 0;
      (u1 sJ).Issues 2 jobA f (guardB f) [fGA f] [fGD f] ∧ (jobA.reg (fGA f)).pois = true) := by unfold State.Issues; decide
/-- R19: token words written out field by field: KIND in [51:50], the handle in [31:0], the token in [49:32], NODE in [57:52], PARENT in [63:58],
ROOT in [64] (NODE), NONE in [65] (ACCEPT); the rest are reserved. -/
def tw (kind h tok node parent root none' : Nat) : BitVec 96 :=
  BitVec.ofNat 96 (h + tok * 2 ^ 32 + kind * 2 ^ 50 + node * 2 ^ 52 + parent * 2 ^ 58 + root * 2 ^ 64 + none' * 2 ^ 65)
theorem test_tokenWords : tokenDecode 120 2 (tw 0 0x41A2D 0x1003F 0 0 0 0) = .token 120 2 0x41A2D 0x1003F 0 ∧
    tokenDecode 120 2 (tw 1 0x41A2D 0x3F 5 1 1 0) = .node 120 2 0x41A2D 0x3F 5 1 true 0 ∧
    tokenDecode 120 2 (tw 2 0x41A2D 0 15 0 0 1) = .accept 120 2 0x41A2D 15 true 0 ∧
    tokenDecode 120 2 (tw 3 0x41A2D 0 0 0 0 0 + 2 ^ 95) = .prime 120 2 0x41A2D 0x20000000 := by decide +kernel
theorem test_tokenWords_hex : tw 0 0x41A2D 0x1003F 0 0 0 0 = 0x000000000001003F00041A2D#96 ∧ tw 1 0x41A2D 0x3F 5 1 1 0 = 0x000000010454003F00041A2D#96 ∧
    tw 2 0x41A2D 0 15 0 0 1 = 0x0000000200F8000000041A2D#96 ∧ tw 3 0x41A2D 0 0 0 0 0 + 2 ^ 95 = 0x80000000000C000000041A2D#96 := by decide +kernel
theorem wit_TokenWordRoundTrip : (tokenEncode (.accept 120 2 0x41A2D 15 true 0)).map (fun x => x.2.2) = some (tw 2 0x41A2D 0 15 0 0 1) := by
  decide +kernel
theorem test_salmWords_reserved : salmDecode 120 2 0x00000000#32 0#32 = .trap 120 2 0x00000000 0 ∧
    salmDecode 120 2 0xE8000000#32 0#32 = .trap 120 2 0xE8000000 0 := by decide +kernel

/-! ### Token ports and the path -/

/-- The TOKEN transfer of the entry on lane 2 at tally 118, and what it leaves. -/
def sTok : State := nx (exec (.token 118 2 hA 17 0) sA)
/-- A speculative step with one node, opened at 112. -/
def sNode : State := nx (exec (.node 112 2 hA 17 0 0 true 0) sA)

theorem test_token : (sTok.entry 3).pend = 1 ∧ sTok.tok.path.map (fun f => (f.lane, f.stamp, f.stage, f.path.map PathTok.tok)) =
    [(2, 118, 7, [17])] := by decide
/-- T7 appends the token to the request: COMMITTED 3, one token held. -/
theorem test_token_held : ((sTok.upTo 145 kAll).entry 3).committed = 3 ∧ ((sTok.upTo 145 kAll).entry 3).held = 1 ∧
    (sTok.upTo 145 kAll).tok.path = [] := by decide
/-- A transfer on a lane that moved less than four GCLK ago is not captured (R19). -/
theorem test_token_spacing : (nx (exec (.token 120 2 hA 18 0) sTok)).tok.path.length = 1 := by decide
theorem test_node : ((sNode.entry 3).spec, (sNode.entry 3).specN, (sNode.entry 3).steps) = (true, 1, 1) := by decide
theorem test_accept : ((nx (exec (.accept 120 2 hA 0 false 0) sNode)).entry 3).req.step.isNone = true ∧
    (((nx (exec (.accept 120 2 hA 0 false 0) sNode)).upTo 145 kAll).entry 3).committed = 3 := by decide
theorem test_prime : (nx (exec (.prime 120 2 hA 0) sA)).tok.path.length = 1 := by decide

theorem wit_TokenAdvancesAutomata : (u0 sA).wch.repairs = [] ∧ (u0 sTok).wch.repairs = [] ∧ (u0 sA).laneReady 2 120 = true ∧ spaced ((u0 sA).lastXfer hA) 120 = true ∧
    (u0 sA).lookup hA .token = some 3 ∧ (u0 sA).epochOf ((u0 sA).entry 3) = some epA ∧
    spaced ((u0 sA).lastXfer 0x00020003) 120 = true ∧ (u0 sA).lookup 0x00020003 .token = none ∧
    (u0 sTok).laneReady 2 120 = true ∧ spaced ((u0 sTok).lastXfer hA) 120 = false := by decide
/-- Every tree frame in use. -/
def sFull : State := { sA with tok := { sA.tok with frames := (List.range 4096).map fun n => (n, ⟨1, true, []⟩) } }
theorem wit_TreeTransfers_full : (u0 sFull).laneReady 2 120 = true ∧ (u0 sFull).wch.repairs = [] ∧
    (u0 sFull).epochOf ((u0 sFull).entry 3) = some epA ∧ spaced ((u0 sFull).nodePred hA 0 0 true) 120 = true ∧
    (u0 sFull).treeBreaks none 2 0 0 true = none ∧ (u0 sFull).freeFrame = none := by decide +kernel
theorem wit_TreeTransfers : (u0 sA).wch.repairs = [] ∧ epA.stopTok < 2 ^ 18 ∧ (u0 sA).laneReady 2 120 = true ∧ (u0 sA).epochOf ((u0 sA).entry 3) = some epA ∧
    (u0 sA).lookup hA .node = some 3 ∧ spaced ((u0 sA).nodePred hA 0 0 true) 120 = true ∧
    (u0 sA).treeBreaks none 2 0 0 true = none ∧ (u0 sA).freeFrame = some 0 ∧
    (u0 sA).treeBreaks ((u0 sA).entry 3).req.step 2 5 0 false = some 0 ∧
    (u0 sA).lookup hA .prime = some 3 ∧ spaced ((u0 sA).lastXfer hA) 120 = true := by decide
theorem wit_TreeTransfers_step : (u0 sNode).wch.repairs = [] ∧ (u0 sNode).epochOf ((u0 sNode).entry 3) = some epA ∧ (u0 sNode).laneReady 2 120 = true ∧ (u0 sNode).lookup hA .node = some 3 ∧
    (u0 sNode).lookup hA .accept = some 3 ∧ ((u0 sNode).entry 3).req.step.isSome = true ∧
    (∀ x, x ∈ ((u0 sNode).entry 3).req.step.toList → (u0 sNode).treeBreaks (some x) 2 1 0 false = none ∧
      spaced ((u0 sNode).nodePred hA 1 0 false) 120 = true ∧
      ∀ y, y ∈ (Tab.get ((u0 sNode).tframe x.frame).nodes 0).toList → y.bad = false) ∧
    spaced ((u0 sNode).acceptPred hA) 120 = true := by decide
theorem wit_PathStages : sA.tok.path = [] ∧ (let s := sTok.upTo 128 kAll;
    s.running = true ∧ s.tok.path.map (fun f => (f.stage, f.stamp, f.handle, f.desc.isSome)) = [(11, 118, hA, true)] ∧ s.tally ≤ 129 ∧
      s.building hA = none) ∧ 118 + 11 < 130 ∧ kSub 6 < kAll := by decide

/-- A mask of slot 5, a word for lane 2 and verdicts that wait. -/
def sM : State :=
  { sA with
    tok := { sA.tok with masks := [(5, ⟨true, 5, 2, 4, [1], 0x55⟩)] }
    ramp := { sA.ramp with outq := [⟨2, (100, 0), 100, 7, true⟩], voq := [(100, 5), (101, 6)] } }
theorem test_maskRead : (drivenAt 124 (Tab.getD (nx (exec (.maskRead 120 3 5 2 0) sM)).pins.maskRsp 3 [])).map (fun r => (r.1, r.2.toNat)) =
    some (true, 0x55) := by decide +kernel
/-- Reads of successive GCLK edges: each has its response four counts later (R34). -/
theorem test_maskRead_pipelined : let s := nx (exec (.maskRead 121 3 5 9 0) (nx (exec (.maskRead 120 3 5 2 0) sM)));
    (drivenAt 124 (Tab.getD s.pins.maskRsp 3 [])).map (fun r => r.1) = some true ∧
    drivenAt 125 (Tab.getD s.pins.maskRsp 3 []) = some (false, 0) := by decide +kernel
theorem test_tokenOut : Tab.get (nx (exec (.tokenOutWord 120 2) sM)).pins.toWord 2 = some (120, 7) ∧
    (nx (exec (.tokenOutWord 120 2) sM)).ramp.outq = [] := by decide
theorem test_verdictOut : (nx (exec (.verdictOutWord 120) sM)).ramp.voq.map (fun w => w.1) = [101] := by decide
theorem wit_PortWords : (u0 sM).alive = true ∧ ((u0 sM).mask 5).used = true ∧ ((u0 sM).mask 5).gen = 2 ∧
    (u0 sM).maskRepair 5 0 120 = false ∧ ((u0 sM).mask 6).used = false ∧ drivenAt 124 (Tab.getD (u0 sM).pins.maskRsp 3 []) = none ∧
    (u0 sM).alive = true ∧ (u0 (nx (exec (.maskRead 120 3 5 2 0) sM))).alive = true ∧
    (drivenAt 124 (Tab.getD (u0 (nx (exec (.maskRead 120 3 5 2 0) sM))).pins.maskRsp 3 [])).isSome = true := by decide +kernel
theorem wit_PortWords_out : (let u := sM.upTo 120 (kRamp 6);
    u.alive = true ∧ u.rampEn = true ∧ (u.ramp.outq.find? fun w => decide (w.lane = 2)) = some ⟨2, (100, 0), 100, 7, true⟩ ∧
      Tab.get u.pins.toWord 2 = none ∧ u.ramp.voq = (100, 5) :: [(101, 6)] ∧ u.pins.voWord.map (fun x => x.1) ≠ some 120) ∧
    (let u := (nx (exec (.tokenOutWord 120 2) { sM with ramp := { sM.ramp with
        outq := [⟨2, (100, 0), 100, 7, true⟩, ⟨2, (100, 1), 100, 8, true⟩] } })).upTo 120 (kRamp 6);
      u.alive = true ∧ u.rampEn = true ∧ (u.ramp.outq.find? fun w => decide (w.lane = 2)) = some ⟨2, (100, 1), 100, 8, true⟩ ∧
      (Tab.get u.pins.toWord 2).map (fun r => r.1) = some 120) := by decide

/-! ### The Landing channel -/

/-- A cell of the given words, zeros behind them; a header of an opcode and a domain with TAG 0x77. -/
def cell8 (l : List Word) : CellWords := l ++ List.replicate (8 - l.length) 0
def hd (op dom : Nat) : Word := BitVec.ofNat 64 (op + dom * 2 ^ 16 + 0x77 * 2 ^ 40)
/-- A state with these cells queued, and with one whole command: its header and its words from W1 on. -/
def inQ (l : List CqCell) (s : State := sA) : State := { s with lnd := { s.lnd with cq := l, cqbuf := cell8 [1, 2] } }
def cmdOf (op dom : Nat) (ws : List Word) : CellWords := cell8 ([hd op dom] ++ ws)
def cm (op dom : Nat) (ws : List Word) (s : State := sA) : State := inQ [.cell (cmdOf op dom ws) true 0] s
/-- STATUS and W3 of the first completion queued for the host. -/
def answerOf (s : State) : Option (Nat × Word) :=
  (s.lnd.nq.find? fun c => decide (fld (wordOf c.words 0) 8 2 = 1)).map fun c => (fld (wordOf c.words 0) 32 8, wordOf c.words 3)

/-- Queues at the edge: 510 and 511 whole cells, 510 and the start of a message, 510 and a gap marker. -/
def fullQ : List CqCell := List.replicate 510 (.cell [] true 0)
theorem test_push_dropped : (nx (exec (.lndCqpush 120 1) (inQ (fullQ ++ [CqCell.gap 4])))).lnd.cq.getLast? = some (.gap 5) ∧
    (nx (exec (.lndCqpush 120 1) (inQ (fullQ ++ [CqCell.gap 4])))).lnd.cmdDrop = 1 := by decide +kernel
theorem test_push : (nx (exec (.lndCqpush 120 1) (inQ []))).lnd.cq = [.cell (cell8 [1, 2]) true 0] := by decide
theorem test_pop_empty : (nx (exec (.lndNqpop 120) sA)).pins.cnData = [(132, 0)] := by decide
theorem test_cmdGap : ((nx (exec (.cmdGap 120) (inQ [.gap 5]))).lnd.nq.map fun c => wordOf c.words 3) = [5] := by decide
theorem test_echo : answerOf (nx (exec (.echo 120) (cm 2 0 [0, 5, 9]))) = some (0, 9) := by decide
theorem test_badOp : answerOf (nx (exec (.badOp 120) (inQ [.cell (cell8 [0x770000000003]) true 0]))) = some (0x13, 0) := by decide
theorem test_fence : answerOf (nx (exec (.fence 120) (cm 1 0 []))) = some (0, 0) := by decide
theorem test_priv : answerOf (nx (exec (.domClose 120) (cm 0x21 5 []))) = some (0x12, 0) := by decide

theorem wit_QueuesAndBadMessages : (u0 sA).alive = true ∧ (u0 sA).portFree = true ∧ (u0 sA).lnd.cqSkip = false ∧ (u0 sA).lnd.cq.length < 511 ∧ (u0 sA).lnd.nq = [] ∧
    (let s := inQ (fullQ ++ [.cell [] false 0]);
      (u0 s).lnd.cq = fullQ ++ [.cell [] false 0] ∧ 511 ≤ (u0 s).lnd.cq.length ∧ (∀ c, c ∈ [CqCell.cell [] false 0] → c.ends = false) ∧
        fullQ.getLast?.map CqCell.ends = some true) ∧
    (let s := inQ (fullQ ++ [CqCell.gap 4]); (u0 s).lnd.cq = (fullQ ++ [CqCell.gap 4]) ++ [] ∧ (fullQ ++ [CqCell.gap 4]).getLast? = some (.gap 4)) ∧
    (let s := inQ [.gap 5, .gap 6]; (u0 s).lnd.cq = .gap 5 :: [.gap 6] ∧ (u0 s).lndEn = true ∧ (u0 s).roomFor 1) := by
  unfold State.roomFor; decide +kernel
/-- A notice of one cell with one behind it, and three cells that wait. -/
def ncA : NqCell := ⟨cell8 [3, 4], true, true, false, false⟩
def sQ : State := inQ [.cell (cell8 [1]) true 0, .gap 5, .cell (cell8 [7]) false 0]
  { sA with lnd := { sA.lnd with nq := [ncA, ⟨[], false, true, false, true⟩] } }
theorem wit_QueuesAndBadMessages_flush : (u0 sQ).alive = true ∧ (u0 sQ).portFree = true ∧ (u0 sQ).lnd.nq = ncA :: [⟨[], false, true, false, true⟩] ∧ (u0 sQ).lnd.nqFlush = none ∧
    (u0 sQ).lnd.cq = [.cell (cell8 [1]) true 0, .gap 5] ++ [.cell (cell8 [7]) false 0] ∧
    (CqCell.cell (cell8 [7]) false 0).ends = false ∧ (CqCell.gap 5).ends = true ∧ (u0 sQ).lnd.nqMid = false ∧
    bitAt (1 : Word) 0 = true ∧ bitAt (1 : Word) 1 = false ∧ bitAt (2 : Word) 0 = false ∧ bitAt (2 : Word) 1 = true ∧
    (u0 { sQ with lnd := { sQ.lnd with nqMid := true } }).lnd.nqMid = true ∧
    (let u := u0 { sQ with lnd := { sQ.lnd with nqFlush := some 1 } }; u.lnd.nqFlush = some 1 ∧ u.portFree = true ∧ ncA.fin = true) := by decide
/-- Messages of another block, with a bad first word, a bad later word, a wrong LEN and a wrong OPCODE. -/
def bads (w : Word) (b : BitVec 8) : State := inQ [.cell (cell8 [w]) true b, .gap 7]
theorem wit_QueuesAndBadMessages_bad : (∀ x : Fin 5, let p : Word × BitVec 8 := [(0x770000000400#64, 0#8), (0x770000000001#64, 2#8),
        (0x770000000001#64, 3#8), (0x770000000101#64, 0#8), (0x7700000000FE#64, 0#8)].getD x (0, 0);
      let u := u0 (bads p.1 p.2);
      u.alive = true ∧ u.portFree = true ∧ u.lndEn = true ∧ u.lnd.opens.length < 512 ∧ u.CmdsSound ∧ u.lnd.cq = .cell (cell8 [p.1]) true p.2 :: [.gap 7] ∧
        (fld p.1 10 6 ≠ u.clk.blkNum ↔ x = 0) ∧ (bitAt p.2 0 = true ↔ x = 2) ∧ (p.2 ≠ 0 ↔ x = 1 ∨ x = 2) ∧
        (fld p.1 8 2 ≠ 0 ↔ x = 3)) := by unfold State.CmdsSound; decide
/-- The command stands alone and whole at the head of the queue, fit to be accepted. -/
def headsOk (s : State) (op : Nat) (dom : Nat) (ws : List Word) : Bool :=
  let u := u0 s
  let w := wordOf (cmdOf op dom ws) 0
  u.alive && u.lndEn && u.portFree && decide (u.lnd.opens.length < 512) && u.lnd.wait.isEmpty &&
    u.lnd.opens.all (fun o => decide (o.id < u.lnd.nextId)) &&
    decide (u.lnd.cq = [.cell (cmdOf op dom ws) true 0]) && decide (fld w 0 8 = op) && decide (fld w 8 2 = 0) &&
    decide (fld w 10 6 = u.clk.blkNum) && decide (fld w 24 4 = 0) && decide (fld w 28 4 = 0) && decide (fld w 56 8 = 0)
theorem heads_of_headsOk {s : State} {op dom : Nat} {ws : List Word} (h : headsOk s op dom ws = true) :
    (u0 s).Heads op (cmdOf op dom ws) [] := by
  simp only [headsOk, Bool.and_eq_true, decide_eq_true_eq, List.all_eq_true, List.isEmpty_iff] at h
  obtain ⟨⟨⟨⟨⟨⟨⟨⟨⟨⟨⟨⟨h1, h2⟩, h0⟩, h3⟩, h13⟩, h4⟩, h5⟩, h6⟩, h7⟩, h8⟩, h9⟩, h10⟩, h11⟩ := h
  exact ⟨h1, h2, h0, h3, h13, h4, h5, h6, h7, h8, h9, h10, h11⟩

/-- The window of LOG_ARM, open at 120 and at its last count, ended one count later. -/
def sArm : State := { sA with lnd := { sA.lnd with nonce := some 6, armAt := 100 } }
theorem wit_CommandsAnswer : headsOk (cm 0x01 0 []) 0x01 0 [] ∧ (u0 (cm 0x01 0 [])).atRisk = [] ∧ headsOk (cm 0x02 0 [0, 5]) 0x02 0 [0, 5] ∧
    (headsOk (cm 0x35 0 []) 0x35 0 [] ∧ domField (cmdOf 0x35 0 []) = 0) ∧
    (∀ k : Fin 9, let op := [0x20, 0x21, 0x30, 0x31, 0x32, 0x33, 0x34, 0x35, 0x36].getD k 0;
      headsOk (cm op 5 []) op 5 [] ∧ domField (cmdOf op 5 []) ≠ 0) ∧
    ((sArm.upTo 2400000099 (kSub 1)).running = true ∧ (sArm.upTo 2400000099 (kSub 1)).lnd.nonce = some 6 ∧
      (sArm.upTo 2400000099 (kSub 1)).tally < 100 + 2400000000 ∧ (sArm.upTo 2400000100 (kSub 1)).running = true ∧
      100 + 2400000000 ≤ (sArm.upTo 2400000100 (kSub 1)).tally ∧ (sArm.upTo 2400000100 (kSub 1)).lnd.nonce = some 6) := by
  decide

/-! ### The request manifest -/

/-- W3 of an ADMIT with the two pages of entry 3's list. -/
def npl : Word := BitVec.ofNat 64 (0x120000 + 2 * 2 ^ 40)
def hW : Word := 0x00010003
def adm (w2 w3 : Word) (s : State := sA) : State := cm 0x10 5 [0, w2, w3] s
/-- Domain 5 closed, without an epoch, at its quota; no index left, or two used ones; the Manifest off. -/
def sNoDom : State := { sA with doms := [(0, Domain.init true)] }
def sNoEp : State := { sA with doms := [(0, Domain.init true), (5, { domA with active := none })] }
def sQuota : State := { sA with doms := [(0, Domain.init true), (5, { domA with quota := 1 })] }
def sNoIdx : State := { sA with man := { sA.man with fresh := 65536 } }
def sFreed : State := { sA with man := { sA.man with fresh := 65536, freed := [77, 78], entries := [(3, entA), (77, Entry.init 9)] } }
/-- The memory tier off. -/
def memOff (s : State) : State := { s with mem := { s.mem with en := false } }
def sOff : State := { sA with man := { sA.man with en := false } }

/-- ADMIT of a request without a prompt: entry 4 in ANSWER; the completion carries its handle. -/
theorem test_admit : answerOf (nx (exec (.admitReq 120) (adm 0x13 npl))) = some (0, 0x10004) ∧
    ((nx (exec (.admitReq 120) (adm 0x13 npl))).entry 4).state = .answer ∧
    ((nx (exec (.admitReq 120) (adm 0x03 npl))).entry 4).state = .admitted := by decide
theorem test_admit_quota : answerOf (nx (exec (.admitReq 120) (adm 0x13 npl sQuota))) = some (7, 0) ∧
    answerOf (nx (exec (.admitReq 120) (adm 0x13 npl sFreed))) = some (0, 0x9004D) := by decide
theorem test_cancel : ((nx (exec (.cancel 120) (cm 0x11 5 [0, hW]))).entry 3).state = .cancelled ∧
    answerOf (nx (exec (.cancel 120) (cm 0x11 6 [0, hW]))) = some (0x10, 0) := by decide
theorem test_retire : answerOf (nx (exec (.retire 120) (cm 0x12 5 [0, hW]))) = some (3, 0) := by decide

theorem wit_AdmitAllocates_refused : (u0 (adm 0x13 npl sOff)).man.en = false ∧
    headsOk (adm 0x13 npl sOff) 0x10 5 [0, 0x13, npl] ∧ ((u0 (adm 0x13 npl sNoDom)).domOf 5).isOpen = false ∧
    headsOk (adm 0x13 npl sNoDom) 0x10 5 [0, 0x13, npl] ∧ headsOk (adm 0x13 npl sNoEp) 0x10 5 [0, 0x13, npl] ∧
    ((u0 (adm 0x13 npl sNoEp)).domOf 5).isOpen = true ∧ ((u0 (adm 0x13 npl sNoEp)).domOf 5).active = none ∧
    headsOk (adm 0x13 npl sQuota) 0x10 5 [0, 0x13, npl] ∧ ((u0 (adm 0x13 npl sQuota)).domOf 5).quota = 1 ∧
    (u0 (adm 0x13 npl sQuota)).inuse 5 = 1 ∧ headsOk (adm 0x13 npl sNoIdx) 0x10 5 [0, 0x13, npl] ∧
    (u0 (adm 0x13 npl sNoIdx)).man.fresh = 65536 ∧ (u0 (adm 0x13 npl sNoIdx)).man.freed = [] := by
  decide
theorem wit_AdmitAllocates : (∀ k : Fin 3, let s := [adm 0x13 npl, adm 0x03 npl, adm 0xC83 npl sFreed].getD k sA;
      let w2 : Word := [0x13#64, 0x03#64, 0xC83#64].getD k 0;
      headsOk s 0x10 5 [0, w2, npl] ∧ (u0 s).MemSound ∧ (u0 s).mem.en = true ∧ (u0 s).man.en = true ∧ ((u0 s).domOf 5).isOpen = true ∧
        ((u0 s).domOf 5).active = some false ∧ ((u0 s).domOf 5).epoch false = some epA ∧ ((u0 s).domOf 5).quota = 0 ∧
        (u0 s).man.fresh ≤ 65536 ∧ (u0 s).pagesOk 5 (fld npl 0 40) (fld npl 40 8) = true ∧ fld w2 5 20 ≤ 1000000 ∧ fld w2 25 39 = 0 ∧
        fld npl 48 16 = 0 ∧ (k = 2 → (u0 s).man.fresh = 65536 ∧ (u0 s).man.freed.head? = some 77) ∧
        (k ≠ 2 → (u0 s).man.fresh = 4)) := by unfold State.MemSound; decide
/-- The memory tier off; a page list outside the domain's region, and a PDL above a second. -/
theorem wit_AdmitAllocates_bad : headsOk (adm 0x13 npl (memOff sA)) 0x10 5 [0, 0x13, npl] ∧ (u0 (adm 0x13 npl (memOff sA))).mem.en = false ∧
    headsOk (adm 0x13 5) 0x10 5 [0, 0x13, 5] ∧ (u0 (adm 0x13 5)).pagesOk 5 5 0 = false ∧
    headsOk (adm 0xFFFFFFFF npl) 0x10 5 [0, 0xFFFFFFFF, npl] ∧ ¬ fld (0xFFFFFFFF : Word) 5 20 ≤ 1000000 := by
  decide

/-- Entry 3 in another state. -/
def setE (e : Entry) (s : State := sA) : State := { s with man := { s.man with entries := [(3, e)] } }
def eEnd : Entry := { entA with state := .ended, endv := true }
/-- A migration out that is under way, its command open between two others. -/
def migA : MigOut := ⟨90, 4, none, 0, false, 10⟩
def eMo : Entry := { entA with state := .migOut, migH := 2, req := { entA.req with mig := some migA } }
def opA (op : Nat) : OpenCmd := ⟨4, op, 9, 5, 90, [], 0⟩
def withOp (op : Nat) (s : State) : State :=
  { s with lnd := { s.lnd with opens := [⟨2, 1, 3, 0, 50, [], 0⟩, opA op, ⟨5, 1, 3, 0, 50, [], 0⟩], nextId := 6 } }
def sMo (e : Entry := eMo) : State := withOp 0x13 (setE e)

theorem wit_CancelAndRetire : headsOk (cm 0x11 5 [0, hW]) 0x11 5 [0, hW] ∧ bitAt hW 32 = false ∧
    (u0 (cm 0x11 5 [0, hW])).live hA = some 3 ∧ ((u0 (cm 0x11 5 [0, hW])).entry 3).dom = 5 ∧
    ((u0 (cm 0x11 5 [0, hW])).entry 3).state = .answer ∧ ((u0 (cm 0x11 5 [0, hW])).entry 3).req.mig = none ∧
    ((u0 (cm 0x11 5 [0, hW])).entry 3).req.build = none ∧
    headsOk (cm 0x11 6 [0, hW]) 0x11 6 [0, hW] ∧ headsOk (cm 0x11 5 [0, 5]) 0x11 5 [0, 5] ∧ (u0 (cm 0x11 5 [0, 5])).live 5 = none ∧
    headsOk (cm 0x11 5 [0, hW] (setE eEnd)) 0x11 5 [0, hW] ∧ (u0 (cm 0x11 5 [0, hW] (setE eEnd))).live hA = some 3 ∧
    headsOk (cm 0x11 5 [0, hW] sMo) 0x11 5 [0, hW] ∧ ((u0 (cm 0x11 5 [0, hW] sMo)).entry 3).req.mig = some migA ∧
    (u0 (cm 0x11 5 [0, hW] sMo)).OpenIs 4 (opA 0x13) := by
  unfold State.OpenIs; decide
/-- CANCEL of a build from another block (none waits), and of an ADMITTED entry; RETIRE of an ended, a parked and a running entry. -/
theorem wit_CancelAndRetire_more : headsOk (cm 0x11 5 [0, 0x100000005]) 0x11 5 [0, 0x100000005] ∧ bitAt (0x100000005 : Word) 32 = true ∧
    (let e := { entA with state := .admitted }; headsOk (cm 0x11 5 [0, hW] (setE e)) 0x11 5 [0, hW] ∧
      ((u0 (cm 0x11 5 [0, hW] (setE e))).entry 3).endv = false ∧ (u0 (cm 0x11 5 [0, hW] (setE e))).roomFor 2) ∧
    (∀ k : Fin 3, let e := [eEnd, { entA with state := .parked }, entA].getD k entA;
      headsOk (cm 0x12 5 [0, hW] (setE e)) 0x12 5 [0, hW] ∧ (u0 (cm 0x12 5 [0, hW] (setE e))).live hA = some 3 ∧
        ((u0 (cm 0x12 5 [0, hW] (setE e))).entry 3).dom = 5 ∧ ((u0 (cm 0x12 5 [0, hW] (setE e))).entry 3).state = e.state) ∧
    headsOk (cm 0x12 6 [0, hW]) 0x12 6 [0, hW] ∧ (u0 (cm 0x12 6 [0, hW])).live hA = some 3 ∧
    headsOk (cm 0x12 5 [0, 7]) 0x12 5 [0, 7] ∧ (u0 (cm 0x12 5 [0, 7])).live 7 = none := by
  unfold State.roomFor; decide

/-- MIGRATE_OUT at COMMITTED, and at an H below it. -/
def moS (w3 : Word) (e : Entry := entA) : State := cm 0x13 5 [0, hW, w3] (setE e)
theorem test_migrateOut : ((nx (exec (.migrateOut 120) (moS 0))).entry 3).state = .migOut ∧
    ((nx (exec (.migrateOut 120) (moS 0))).entry 3).migH = 2 ∧ answerOf (nx (exec (.migrateOut 120) (moS 1))) = some (0x0A, 0) := by decide
/-- The hand-over frees the entry and its command completes with COMMITTED. -/
theorem test_handOver : ((nx (exec (.handOver 120 3) sMo)).entry 3).state = .free ∧
    answerOf (nx (exec (.handOver 120 3) sMo)) = some (0, 2) := by decide +kernel
theorem test_migOutTimeout : ((nx (exec (.migOutTimeout 30000 3) (sMo { eMo with migH := 5 }))).entry 3).state = .answer ∧
    answerOf (nx (exec (.migOutTimeout 30000 3) (sMo { eMo with migH := 5 }))) = some (0x0D, 0) := by decide
theorem wit_MigrationOut : (∀ k : Fin 3, let w : Word := [0, 1, 0x100000005].getD k 0;
      headsOk (moS w) 0x13 5 [0, hW, w] ∧ (u0 (moS w)).live hA = some 3 ∧ ((u0 (moS w)).entry 3).dom = 5 ∧
        ((u0 (moS w)).entry 3).state = .answer ∧ ((u0 (moS w)).entry 3).spec = false ∧ ((u0 (moS w)).entry 3).committed = 2) ∧
    (let e := { entA with state := .admitted }; headsOk (moS 0 e) 0x13 5 [0, hW, 0] ∧ (u0 (moS 0 e)).live hA = some 3) ∧
    (let e := { entA with spec := true }; headsOk (moS 0 e) 0x13 5 [0, hW, 0] ∧ (u0 (moS 0 e)).live hA = some 3 ∧
      ((u0 (moS 0 e)).entry 3).spec = true) := by decide
/-- PAGES with H reached, FERRY acknowledged, and H not reached. -/
def eMoN (k : Nat) : Entry :=
  if k = 0 then eMo
  else if k = 1 then { eMo with mmode := true, req := { eMo.req with mig := some { migA with acked := true } } }
  else { eMo with migH := 5 }
theorem wit_MigrationOut_end : (∀ k : Fin 3, let u := (sMo (eMoN k)).upToWhen 120 (kSub 2) (fun w => w.drained 3);
      u.running = true ∧ u.mem.en = true ∧ (u.entry 3).state = .migOut ∧ ((u.entry 3).req.mig.map fun m => m.cmd) = some 4 ∧ u.OpenIs 4 (opA 0x13) ∧
        ((u.entry 3).committed = (u.entry 3).migH ↔ k ≠ 2) ∧ (u.entry 3).pend = 0 ∧ (u.entry 3).req.chunks.length = 0 ∧
        u.dsp.insts.length = 0 ∧ u.dsp.startQ = [] ∧ u.dsp.outside = [] ∧ ((u.entry 3).mmode = true ↔ k = 1)) ∧
    (let u := (sMo (eMoN 2)).upTo 30000 (kSub 2); u.running = true ∧ (u.entry 3).state = .migOut ∧ 90 + 2400 * 10 ≤ u.tally ∧
      (u.entry 3).committed < 5 ∧ ((u.entry 3).req.mig.map fun m => m.cmd) = some 4 ∧ u.OpenIs 4 (opA 0x13)) := by
  unfold State.OpenIs; decide +kernel
theorem wit_MigrationOut_flush : ((sMo.upToWhen 120 (kSub 2) (fun w => w.drained 3)).flush 3 120 |>.entry 3).state = .migOut := by decide +kernel

/-- MIGRATE_IN of epoch w2, at H = w3. -/
def miW (w2 w3 : Nat) : List Word := [0, BitVec.ofNat 64 w2, BitVec.ofNat 64 w3, npl]
def miS (w2 : Nat) : State := cm 0x14 5 (miW w2 2)
/-- Entry 4 builds from entry 3's pages, whose flush header and copy 0 say domain 5, epoch 7 and COMMITTED 2. -/
def bldA : Build := ⟨4, 90, 10, 2, false, false, 0, hA, false, false, false, false, 0, none, .pass, false, none, [], 0, [], 0⟩
def eIn (b : Build) (st : EState) : Entry :=
  { Entry.init 1 with state := st, dom := 5, epoch := 7, plist := 0x120000, npage := 2, req := { (Entry.init 1).req with build := some b } }
def sIn (e : Entry) (op : Nat) : State :=
  withOp op { sA with man := { sA.man with entries := [(3, { entA with state := .parked }), (4, e)], fresh := 5 } }
def flushed (s : State) : State := ((s.wr 0x100050 [5]).wr 0x100052 [7]).wr 0x100100 [2]
theorem test_migrateIn : ((nx (exec (.migrateIn 120) (miS 7))).entry 4).state = .migIn ∧
    answerOf (nx (exec (.migrateIn 120) (miS 8))) = some (6, 0) := by decide +kernel
theorem test_migrateInDone : ((nx (exec (.migrateInDone 120 4) (flushed (sIn (eIn bldA .migIn) 0x14)))).entry 4).state = .answer ∧
    answerOf (nx (exec (.migrateInDone 120 4) (sIn (eIn bldA .migIn) 0x14))) = some (0x0C, 0) := by decide +kernel
theorem test_migrateInTimeout : answerOf (nx (exec (.migrateInTimeout 30000 4) (sIn { eIn bldA .migIn with mmode := true } 0x14))) =
    some (0x0D, 0) := by decide +kernel
theorem wit_MigrationIn : headsOk (miS 7) 0x14 5 (miW 7 2) ∧ ((u0 (miS 7)).domOf 5).liveSlot 7 = some false ∧
    (u0 (miS 7)).mem.en = true ∧ (u0 (miS 7)).admitCheck 5 true 0x120000 2 true = none ∧ (u0 (miS 7)).man.next = some 4 ∧ fld npl 0 40 = 0x120000 ∧ fld npl 40 8 = 2 ∧
    headsOk (miS 8) 0x14 5 (miW 8 2) ∧ ((u0 (miS 8)).domOf 5).liveSlot 8 = none ∧
    (u0 (miS 8)).admitEarly 5 false = some 6 ∧ headsOk (memOff (miS 7)) 0x14 5 (miW 7 2) ∧ (u0 (memOff (miS 7))).mem.en = false ∧
    (u0 (memOff (miS 7))).admitEarly 5 true = none ∧ (u0 (miS 8)).admitCheck 5 false 0x120000 2 true = some 6 ∧ headsOk (miS (7 + 2 ^ 20 + 2 ^ 22)) 0x14 5 (miW (7 + 2 ^ 20 + 2 ^ 22) 2) ∧
    (u0 (miS (7 + 2 ^ 20 + 2 ^ 22))).fry.offers.length = 0 := by decide +kernel
theorem wit_MigrationIn_end : (∀ k : Fin 2, let u := uk 2 (if k = 0 then flushed (sIn (eIn bldA .migIn) 0x14) else sIn (eIn bldA .migIn) 0x14);
      u.running = true ∧ u.mem.en = true ∧ (∀ r, r ∈ (u.ctlPage 4).toList → u.ctlOk 4 r = true) ∧ (u.entry 4).state = .migIn ∧ (u.entry 4).mmode = false ∧ u.OpenIs 4 (opA 0x14) ∧
        (u.entry 4).req.build = some bldA ∧ ((u.ctlPage 4).map fun r => r.page) = some 0x100000 ∧
        ((u.flushHdr 0x100000).dom = 5 ↔ k = 0) ∧ ((u.flushHdr 0x100000).epoch = 7 ↔ k = 0) ∧ (u.flushHdr 0x100000).cur = false ∧
        ((u.readCopy 0x100100).committed = 2 ↔ k = 0)) := by unfold State.OpenIs; decide +kernel
theorem wit_MigrationIn_refused : (let b := { bldA with refused := true };
      let u := uk 2 (sIn (eIn b .migIn) 0x14);
      u.running = true ∧ (u.entry 4).state = .migIn ∧ (u.entry 4).req.build = some b ∧ u.OpenIs 4 (opA 0x14)) ∧
    (let u := (sIn { eIn bldA .migIn with mmode := true } 0x14).upTo (90 + 2400 * 10) (kSub 2);
      u.running = true ∧ bldA.arrived = false ∧ (u.entry 4).mmode = true ∧ (u.entry 4).req.build = some bldA ∧ bldA.stamp + 2400 * bldA.limit ≤ u.tally) := by
  unfold State.OpenIs; decide +kernel

/-- REUSE of the parked entry 3. -/
def reuW : List Word := [0, hW, 7, npl]
def sPark : State := setE { entA with state := .parked }
def reuS : State := cm 0x15 5 reuW sPark
/-- Entry 4 in REUSE, its copy done, and for a re-screen whose pages hold a token log: role 3, page 0x130000, tokens 0x55 and 0x56. -/
def bldR : Build := { bldA with screen := true }
def sRe (b : Build) : State := sIn { eIn b .reuse with committed := 2 } 0x15
def sLog : State :=
  ((sIn { eIn bldR .reuse with committed := 2, npage := 3 } 0x15).wr 0x120010 [0x13, 0, 0, 5, 1, 2]).wr 0x130000
    ([5, 1] ++ List.replicate 62 0 ++ [0x55, 0, 0, 0, 0x56])
theorem test_reuse_stale : answerOf (nx (exec (.reuse 120) (cm 0x15 5 reuW))) = some (1, 0) := by decide +kernel
theorem test_reuseDone : answerOf (nx (exec (.reuseDone 130 4) (sRe { bldA with refused := true }))) = some (0x11, 0x10004) ∧
    ((nx (exec (.reuseDone 130 4) (sRe { bldA with refused := true }))).entry 4).state = .stopped := by decide +kernel
theorem test_replay : ((nx (exec (.replayTransfer 130 2 4) sLog)).tok.path.map fun f => (f.replay, f.desc, f.pos)) = [(true, none, 0)] := by
  decide +kernel
theorem wit_ReuseAndReplay : headsOk reuS 0x15 5 reuW ∧ (u0 reuS).live hA = some 3 ∧ ((u0 reuS).entry 3).dom = 5 ∧
    ((u0 reuS).entry 3).state = .parked ∧ ((u0 reuS).domOf 5).liveSlot 7 = some false ∧ (u0 reuS).mem.en = true ∧ (u0 reuS).admitCheck 5 true 0x120000 2 true = none ∧
    ((u0 reuS).domOf 5).epoch false = some epA ∧ (u0 reuS).man.next = some 4 ∧
    headsOk (cm 0x15 5 reuW) 0x15 5 reuW ∧ ((u0 (cm 0x15 5 reuW)).entry 3).state ≠ .parked ∧
    (let s := cm 0x15 5 [0, hW, 9, npl] sPark;
      headsOk s 0x15 5 [0, hW, 9, npl] ∧ ((u0 s).entry 3).state = .parked ∧ ((u0 s).domOf 5).liveSlot 9 = none ∧
        (u0 s).admitEarly 5 false = some 6) ∧ headsOk (memOff reuS) 0x15 5 reuW ∧ (u0 (memOff reuS)).mem.en = false ∧
    (u0 (memOff reuS)).admitEarly 5 true = none := by decide +kernel
theorem wit_ReuseAndReplay_end : (∀ k : Fin 3, let b := if k = 0 then bldA else if k = 1 then { bldA with refused := true } else bldR;
      let u := (sRe b).upToWhen 120 (kSub 2) (fun w => w.screenDone 4 b);
      u.running = true ∧ u.mem.en = true ∧ (u.entry 4).state = .reuse ∧ (u.entry 4).req.build = some b ∧ u.OpenIs 4 (opA 0x15) ∧ b.act ≠ .stop ∧
        (u.entry 4).endv = false ∧ b.nextPos < (u.entry 4).committed) := by unfold State.OpenIs; decide +kernel
theorem wit_ReuseAndReplay_replay : let u := uk 6 sLog;
    u.running = true ∧ u.mem.en = true ∧ u.wch.repairs = [] ∧ u.logOk 4 0 = true ∧ u.tokEn = true ∧ u.laneFree 2 120 = true ∧ u.epochOf (u.entry 4) = some epA ∧ u.tlogRead 4 0 = some 0x55 ∧
      (u.entry 4).committed = 2 ∧ spaced none 120 = true ∧ (u.entry 4).state = .reuse ∧ (u.entry 4).req.build = some bldR ∧
      bldR.nextPos = 0 ∧ bldR.lastRep = none := by decide +kernel
/-- A control page whose header names another domain; a state that came by the Ferry. -/
theorem wit_MigrationIn_pages : (let u := uk 2 ((sIn (eIn bldA .migIn) 0x14).wr 0x100000 [9]);
      u.running = true ∧ u.mem.en = true ∧ (u.entry 4).mmode = false ∧ (u.ctlPage 4).isSome = true ∧
        (∀ r, r ∈ (u.ctlPage 4).toList → u.ctlOk 4 r = false)) ∧
    (let b := { bldA with arrived := true };
      let u := uk 2 (flushed (sIn { eIn b .migIn with mmode := true } 0x14));
      u.running = true ∧ u.mem.en = true ∧ (u.entry 4).state = .migIn ∧ (u.entry 4).mmode = true ∧ b.mirror = false ∧
        (u.entry 4).req.build = some b ∧ u.OpenIs 4 (opA 0x14) ∧ (u.readCopy (copyAddr 0x100000 false)).committed = 2 ∧
        ((u.ctlPage 4).map fun r => r.page) = some 0x100000 ∧ (∀ r, r ∈ (u.ctlPage 4).toList → u.ctlOk 4 r = true)) := by
  unfold State.OpenIs; decide +kernel

theorem wit_ReuseAndReplay_recover : let r : Recovery := ⟨.answer, 90, 1, some 100, 0, none, 0, 9, 5, [], false⟩;
    let e := { eIn bldR .recover with committed := 2, npage := 3, req := { (Entry.init 1).req with recov := some r } };
    let u := uk 6 (((sIn e 0x15).wr 0x120010 [0x13, 0, 0, 5, 1, 2]).wr 0x130000 ([5, 1] ++ List.replicate 62 0 ++ [0x55, 0, 0, 0, 0x56]));
    u.running = true ∧ u.mem.en = true ∧ u.wch.repairs = [] ∧ u.tokEn = true ∧ u.logOk 4 0 = true ∧ u.laneFree 2 120 = true ∧ u.epochOf (u.entry 4) = some epA ∧ u.tlogRead 4 0 = some 0x55 ∧
      (u.entry 4).state = .recover ∧ ((u.entry 4).req.recov.map fun r => (r.restored, r.nextPos, r.lastRep)) = some (some 100, 0, none) := by
  decide +kernel

/-! ### The Ramp and the prompt -/

/-- Entry 3 holds one token in an open chunk whose first token came at 120: it closes at 370, its window ends at 240120. -/
def chA : Chunk := ⟨0, 120, rampA, [⟨17, 2, .pass, false⟩], 1, [17], none, none, none, false, false, .pass, false⟩
def withC (cs : List Chunk) (s : State := sA) : State :=
  setE { entA with held := cs.length, req := { entA.req with chunks := cs } } s
/-- The epoch has no chunk graph. -/
def sNoG : State := { sA with doms := [(0, Domain.init true), (5, { domA with ep0 := some { epA with cgraph := none } })] }
/-- A window whose miss action is STOP; a later chunk; a chunk that was judged. -/
def chStop : Chunk := { chA with closed := some 370, set := { rampA with miss := false } }
def ch1 (c : Chunk) : Chunk := { c with num := 1, f := c.f + 1000 }
def chJ : Chunk := { chA with closed := some 370, judged := some 400 }

theorem test_closeTime : ((nx (exec (.closeTime 480 3) (withC [chA]))).entry 3).req.chunks.map (fun c => c.closed) = [some 370] ∧
    (nx (exec (.closeTime 480 3) (withC [chA]))).dsp.startQ.map (fun t => (t.graph, t.k, t.stamp)) = [(1, 0, 370)] ∧
    ((nx (exec (.closeTime 369 3) (withC [chA]))).entry 3).req.chunks.map (fun c => c.closed) = [none] := by decide +kernel
theorem test_deadline : ((nx (exec (.deadlineExpiry 240120 3) (withC [chStop]))).entry 3).state = .stopped ∧
    ((nx (exec (.deadlineExpiry 240119 3) (withC [chStop]))).entry 3).state = .answer := by decide +kernel
theorem test_deadline_flag : ((nx (exec (.deadlineExpiry 240120 3) (withC [{ chA with closed := some 370 }]))).entry 3).req.chunks.map
    (fun c => (c.judged, c.missed, c.floor)) = [(some 240120, true, .flag)] := by decide +kernel
/-- The word of one token: its handle, the token in [49:32], CHUNK_END (R53). -/
theorem test_release : ((nx (exec (.release 500 3) (withC [chJ]))).ramp.outq.map
      fun w => (w.lane, w.since, fld w.word 0 32, fld w.word 32 18, w.word.getLsbD 58)) = [(3, 402, 0x10003, 17, true)] ∧
    ((nx (exec (.release 500 3) (withC [chJ]))).entry 3).released = 1 := by decide +kernel
theorem wit_ChunkTimes : (let u := (withC [chA]).upTo 480 (kRamp 4);
      u.running = true ∧ (u.entry 3).req.openChunk = some chA ∧ 120 + 240 * rampA.close + 10 = 370 ∧ 370 ≤ u.tally ∧
        u.chunk 3 0 = some chA ∧ chA.set.passthru = false ∧ u.dsp.startQ.length < 65535 ∧
        ((u.epochOf (u.entry 3)).bind fun x => x.cgraph) = some 1) ∧
    ((withC [chA]).upTo 369 (kRamp 4)).tally = 369 ∧
    (let u := (withC [chA] sNoG).upTo 480 (kRamp 4);
      u.running = true ∧ u.rampEn = true ∧ (u.entry 3).req.openChunk = some chA ∧ u.chunk 3 0 = some chA ∧
        ((u.epochOf (u.entry 3)).bind fun x => x.cgraph) = none) := by decide +kernel
/-- The STOP miss of the only chunk and behind a judged one, the FLAG miss before another chunk, and no window that has ended. -/
theorem wit_ChunkTimes_windows : (∀ k : Fin 3, let cs := if k = 0 then [chStop] else if k = 1 then [chJ, ch1 chStop] else [{ chA with closed := some 370 }, ch1 chJ];
      let c := if k = 0 then chStop else if k = 1 then ch1 chStop else { chA with closed := some 370 };
      let u := (withC cs).upTo (c.f + 240000) (kRamp 1);
      u.running = true ∧ u.rampEn = true ∧ (u.entry 3).req.chunks = cs ∧ cs[if k = 1 then 1 else 0]? = some c ∧ c.judged = none ∧
        c.set.passthru = false ∧ c.f + 2400 * c.set.deadline ≤ u.tally ∧ (c.set.miss = true ↔ k = 2) ∧ (u.entry 3).state = .answer ∧
        (u.entry 3).req.ended = false ∧ (u.entry 3).req.stop.isNone = true ∧ chJ.judged = some 400 ∧ cs.map Chunk.num = (List.range cs.length)) ∧
    (let u := (withC [chStop]).upTo 240119 (kRamp 1); u.running = true ∧ (u.entry 3).req.chunks = [chStop] ∧ u.tally < chStop.f + 240000) := by
  decide +kernel
/-- Release of a PASS token, of two REDACT tokens, of two REPLACE tokens, of a chunk with the STOP token; and before the judgement. -/
def chR (k : Nat) : Chunk :=
  if k = 0 then chJ
  else if k = 1 then { chJ with toks := [⟨17, 2, .redact, false⟩, ⟨18, 3, .redact, false⟩] }
  else if k = 2 then { chJ with toks := [⟨17, 2, .replace, false⟩, ⟨18, 3, .replace, false⟩] }
  else { chJ with isEoa := true }
theorem wit_ReleaseEmitsWords : (∀ k : Fin 4, let u := (withC [chR k, ch1 chA]).upTo 500 (kRamp 5);
      u.running = true ∧ (u.entry 3).req.chunks = [chR k, ch1 chA] ∧ (ch1 chA).num ≠ (chR k).num ∧ (chR k).judged = some 400 ∧
        u.epochOf (u.entry 3) = some epA ∧ (u.entry 3).lastrel ≤ 400 ∧ 400 ≤ u.tally ∧ u.ramp.outq.length = 0 ∧
        (∀ h, h ∈ (chR k).toks → h.act ≠ .stop) ∧ (u.entry 3).req.stop.isNone = true ∧ (u.entry 3).state = .answer) ∧
    ((withC [chJ]).upTo 399 (kRamp 5)).tally < 400 := by decide +kernel

/-- An ADMITTED request, and transfers of Prompt In: form, bytes or tokens, LAST. -/
def sAd : State := setE { entA with state := .admitted, np := false, committed := 0 }
def pinW (h : Nat) (form last : Bool) (bs : List Nat) : BitVec 576 :=
  BitVec.ofNat 576 (h + (if form then 2 ^ 32 else 0) + bs.length * 2 ^ 33 + (if last then 2 ^ 40 else 0) +
    ((List.range bs.length).map fun k => bs.getD k 0 * 2 ^ (64 + (if form then 18 else 8) * k)).sum)
/-- The request in PROMPT, 0x41 0x42 in its view and 0xC3 carried, its window of 100 microseconds begun at 100. -/
def ePr : Entry :=
  { entA with
    state := .prompt, np := false, committed := 0, pstamp := 100, pdl := 100
    req := { entA.req with
      pform := some false, pforms := (true, true), pset := rampA, pmax := 1, pview := 2, pwin := true
      ptext := { entA.req.ptext with utf8 := [0xC3] } } }
def sPr : State := setE ePr
def w1 : BitVec 576 := pinW 0x10003 false false [0x41, 0x42, 0xC3]
def w2 : BitVec 576 := pinW 0x10003 false false [0xA9, 0x42]
theorem test_promptIn : (let v := nx (exec (.promptIn 120 w1) sAd);
    ((v.entry 3).state, (v.entry 3).pstamp, (v.entry 3).req.pview, (v.entry 3).req.ptext.utf8) = (.prompt, 120, 2, [0xC3])) := by
  decide +kernel
theorem test_promptIn_drop : (nx (exec (.promptIn 120 w2) sA)).txt.pdrop = 1 := by decide +kernel
theorem test_promptDeadline : ((nx (exec (.promptDeadlineExpiry 240100 3) sPr)).entry 3).state = .answer ∧
    ((nx (exec (.promptDeadlineExpiry 240099 3) sPr)).entry 3).state = .prompt := by decide +kernel
theorem wit_PromptScreened : (∀ k : Fin 2, let s := if k = 0 then sAd else sPr;
      let w := if k = 0 then w1 else w2;
      let u := u0 s;
      u.alive = true ∧ u.pinEn = true ∧ u.pinTaken = false ∧ hA.toNat = fld w 0 32 ∧ u.live hA = some 3 ∧ u.epochOf (u.entry 3) = some epA ∧
        ((u.entry 3).state = .admitted ↔ k = 0) ∧ ((u.entry 3).state = .prompt ↔ k = 1) ∧ (u.entry 3).plast = false ∧
        fld w 33 7 = (if k = 0 then 3 else 2) ∧ w.getLsbD 32 = false ∧ w.getLsbD 40 = false ∧ (u.domOf 5).formB = true ∧
        (u.entry 3).req.pforms.1 = decide (k = 1) ∧ ((u.entry 3).req.pform = none ↔ k = 0) ∧ (u.entry 3).req.oversize = false ∧
        (u.domOf 5).pmax = 1 ∧ (u.entry 3).req.pview ≤ 2 ∧ areaSize (areaPages (u.runs 0x120000 2) 1 0) = 65472) := by decide +kernel
/-- The repaired bytes fit, and their write is allowed. -/
theorem wit_PromptScreened_bytes :
    ((repair false 4 ([0x41, 0x42, 0xC3].map fun b => (b, ())) : Repaired Unit).out.map fun p => p.1) = [0x41, 0x42] ∧
    ((u0 sAd).wrArea 5 (areaPages ((u0 sAd).runs 0x120000 2) 1 0) 0 [0x41, 0x42]).2 = true := by decide +kernel
theorem wit_PromptScreened_dropped : (u0 sA).promptReason w2 = some 4 ∧ (u0 sA).roomFor 1 ∧ (u0 sAd).live 0x00020003 = none ∧
    (u0 (setE { ePr with plast := true })).live hA = some 3 ∧ ((u0 (setE { ePr with plast := true })).entry 3).plast = true ∧
    fld (pinW 0x10003 false false []) 33 7 = 0 ∧ fld (pinW 0x10003 true false (List.replicate 29 0)) 33 7 = 29 := by
  unfold State.roomFor; decide +kernel
/-- The window of FLAG before its end and at it, and of STOP. -/
theorem wit_PromptScreened_window : (∀ k : Fin 3, let s := if k = 2 then setE { ePr with req := { ePr.req with pset := { rampA with miss := false } } } else sPr;
      let u := s.upTo (if k = 0 then 240099 else 240100) (kRamp 1);
      u.running = true ∧ u.rampEn = true ∧ (u.entry 3).state = .prompt ∧ (u.entry 3).pstamp + 2400 * (u.entry 3).pdl = 240100 ∧
        0 < (u.entry 3).pdl ∧ (u.entry 3).req.oversize = false ∧ (u.entry 3).req.ended = false ∧ (u.tally < 240100 ↔ k = 0) ∧
        ((u.entry 3).req.pset.miss = false ↔ k = 2)) := by decide +kernel
/-- Prompt In that has moved at this edge; a window that ends although its request has stopped; room for the notice of a FLAG miss. -/
theorem wit_PromptScreened_taken : (let u := u0 { sAd with txt := { sAd.txt with lastPin := some 120 } };
      u.alive = true ∧ u.pinEn = true ∧ u.pinTaken = true) ∧ (u0 sA).building hA = none ∧ (u0 sA).pinTaken = false := by decide +kernel
theorem wit_ChunkTimes_stopped : (let s := setE { entA with state := .stopped, req := { entA.req with chunks := [chStop], stop := some ⟨1, 300⟩ } };
      let u := s.upTo 240120 (kRamp 1);
      u.running = true ∧ u.rampEn = true ∧ (u.entry 3).req.chunks = [chStop] ∧ (u.entry 3).req.stop.isSome = true ∧
        (u.entry 3).req.ended = false) ∧
    (let u := (withC [{ chA with closed := some 370 }, ch1 chJ]).upTo 240120 (kRamp 1); u.roomFor 1 ∧ (u.entry 3).req.build = none) := by
  unfold State.roomFor; decide +kernel

/-! ### The Dispatcher and the calls -/

/-- A graph directory whose graph 0 has three tasks: task 0 free, tasks 1 and 2 behind it, task 2 a subgraph of
graph 1. -/
def mem8 (a : Nat) (v : Nat) (s : State) : State := s.wr a (leBytes 8 v)
def trA : Trigger := ⟨hA, 0, false, 2, none, 0, false, 3, true, 77, 60⟩
def sGr : State :=
  mem8 0x200000 0x201000 <| mem8 0x201000 (3 + 1 * 2 ^ 7) <| mem8 0x201008 0x202000 <| mem8 0x202008 0x300000 <|
    mem8 0x202028 0x300000 <| mem8 0x202030 1 <| mem8 0x202040 (8 + 1 * 2 ^ 8) <| mem8 0x202050 1 <| mem8 0x300000 (50 + 2 * 2 ^ 18) <|
    { sA with dsp := { sA.dsp with startQ := [trA, { trA with k := 5 }] } }
/-- Two causes of resolution wait, the first of another instance. -/
def sRv : State :=
  { sJ with dsp := { sJ.dsp with insts := [(7, { instA with done := 6, ready := [(0, 50), (1, 50), (2, 50)] })], resolve := [⟨9, 10, 1⟩, ⟨7, 100, 2⟩] } }
/-- With the start queue empty nothing starts. (Which record an instance gets is free, so a start itself is not evaluated here.) -/
theorem test_graphStart : (nx (exec (.graphStart 120) sA)).dsp.insts.length = 0 := by decide +kernel
/-- Task 3 waits for tasks 1 and 2 and becomes ready at the cause's stamp + 4. -/
theorem test_resolve : (nx (exec (.dependenceResolve 120 7) sRv)).dsp.ready = [⟨7, 3, 104, none⟩] := by decide +kernel
theorem wit_GraphsStartAndResolve : (let u := sGr.upToWhen 120 (kSub 4) (fun w => !w.dsp.startQ.isEmpty);
      u.running = true ∧ u.mem.en = true ∧ u.dsp.startQ = trA :: [{ trA with k := 5 }] ∧ u.dspEn = true ∧ u.dsp.insts.length < 2048 ∧ u.live hA = some 3 ∧
        u.epochOf (u.entry 3) = some epA ∧ u.graphAddr epA.gdir 0 = 0x201000 ∧ (u.graphHdr 0x201000).ntask = 3 ∧
        (u.taskAt 0x202000).deps = 0 ∧ (u.taskAt 0x202000).sub = false ∧ (u.taskAt 0x202040).sub = true ∧ u.dsp.outside = []) ∧
    (sA.upToWhen 120 (kSub 4) (fun w => !w.dsp.startQ.isEmpty)).dsp.startQ = [] ∧
    (let u := uk 4 sRv;
      u.running = true ∧ (u.dsp.resolve.find? fun r => decide (r.1 = 7) && decide (r.2 + 4 ≤ u.tally)) = some ⟨7, 100, 2⟩ ∧
        (u.inst 7).map (fun g => (g.ntask, g.met, g.ended, g.parent.isNone)) = some (4, 4, false, true)) := by decide +kernel

/-- Two jobs are ready, task 1 the earlier; or it was pre-empted and is in frame 5. -/
def sRdy (f : Option Nat) : State :=
  { sGr with
    dsp := { sGr.dsp with
      insts := [(7, { instA with issued := 0 })], ready := [⟨7, 2, 90, none⟩, ⟨7, 1, 80, f⟩]
      frames := [(5, ⟨jobA, [(5, ⟨0x8877665544332211, 1, false, true⟩)], 1⟩)] } }
theorem test_jobPlace : ((nx (exec (.jobPlace 120) (sRdy none))).job 0).map (fun j => (j.task, j.pc, j.nword, (j.reg 1).val, (j.reg 3).val)) =
    some (1, 8, 50, 9, 2) ∧ (nx (exec (.jobPlace 120) (sRdy none))).dsp.ready = [⟨7, 2, 90, none⟩] := by decide +kernel
theorem test_jobPlace_resumed : ((nx (exec (.jobPlace 120) (sRdy (some 5)))).job 0).map (fun j => (j.pc, (j.reg 5).val)) = some (40, 40) := by
  decide +kernel
theorem wit_JobsPlaced : ∀ k : Fin 2, let f := if k = 0 then none else some 5;
    let u := uk 4 (sRdy f);
    u.running = true ∧ u.mem.en = true ∧ u.dspEn = true ∧ u.nextJob u.tally = some ⟨7, 1, 80, f⟩ ∧ u.placeSlot u.tally = some 0 ∧
      u.inst 7 = some { instA with issued := 0 } ∧ instA.tasks[1]? = some ⟨false, 3, false, 0, 0x300000, 0, 9⟩ ∧
      ((Tab.get u.dsp.frames 5).map fun x => x.job) = some jobA := by decide +kernel

/-- A job waits for semaphore 3, free or held; another for 5 credits of group 2, of which n are free. -/
def jobW : Job := { jobA with wait := .sem 3 90 6 }
def sW (h : Option Nat) : State := (withJob jobW).updSem 5 3 fun _ => ⟨h, [2, 8], true⟩
def jobC : Job := { jobA with wait := .cred 2 5 90 6 }
def sWc (n : Nat) : State := (withJob jobC).setGroup 2 { Group.init with phase := .up, free := n, waiters := [2, 8], marked := true }
theorem test_semGrant : ((nx (exec (.semGrant 120 5 3) (sW none))).domOf 5).sem 3 = ⟨some 2, [8], false⟩ ∧
    regOf (nx (exec (.semGrant 120 5 3) (sW none))) 6 = some (1, false) := by decide +kernel
theorem test_creditGrant : ((nx (exec (.creditGrant 120 2) (sWc 5))).group 2).free = 0 ∧
    regOf (nx (exec (.creditGrant 120 2) (sWc 5))) 6 = some (0x50001, false) := by decide +kernel
theorem wit_WaitersGranted : (∀ k : Fin 2, let h := if k = 0 then none else some 9;
      let u := u1 (sW h);
      u.running = true ∧ (u.domOf 5).sem 3 = ⟨h, [2, 8], true⟩ ∧ u.job 2 = some jobW ∧ jobW.wait = .sem 3 90 6 ∧ jobW.dom = 5) ∧
    (∀ k : Fin 2, let u := u1 (sWc (4 + k));
      u.running = true ∧ (u.group 2).waiters = 2 :: [8] ∧ (u.group 2).free = 4 + k ∧ u.job 2 = some jobC ∧
        jobC.wait = .cred 2 5 90 6) := by decide +kernel

/-- A class with two banks, and one that no bank has ever served. -/
def ttC (av : Bool) : TtClass := { ttB with av := av, words := ttB.words ++ [(256, 0x10)], nslot1 := 1 }
def sB (av : Bool) : State := sA.setTtc 1 (ttC av)
def swW : Word := BitVec.ofNat 64 (4 + 2 * 2 ^ 8 + 1 * 2 ^ 17 + 5 * 2 ^ 32)
theorem test_ttClsSw : ((nx (exec (.ttClsSw 120 1 swW) (sB true))).ttc 1).sw = some 120 ∧
    ((nx (exec (.ttClsSw 120 1 (4 + 5 * 2 ^ 32)) sA)).ttc 1).status = 2 := by decide +kernel
theorem test_ttSwitch : answerOf (nx (exec (.ttSwitch 120) (cm 0x30 0 [0, 5] (sB true)))) = some (0, 0) ∧
    answerOf (nx (exec (.ttSwitch 120) (cm 0x30 0 [0, 1] (sB true)))) = some (0x0A, 0) := by decide +kernel
/-- Both banks' rounds start at 7680, the first time after 119. -/
theorem test_bankSwitch : ((nx (exec (.bankSwitch 7680 1) (sA.setTtc 1 { ttC true with sw := some 119 }))).ttc 1).active = true ∧
    ((nx (exec (.bankSwitch 7679 1) (sA.setTtc 1 { ttC true with sw := some 119 }))).ttc 1).active = false := by decide +kernel
theorem wit_BanksSwitch : (u0 (sB true)).alive = true ∧ (u0 (sB true)).portFree = true ∧ bitAt swW 2 = true ∧ headsOk (cm 0x30 0 [0, 5] (sB true)) 0x30 0 [0, 5] ∧
    domField (cmdOf 0x30 0 [0, 5]) = 0 ∧ fld (wordOf (cmdOf 0x30 0 [0, 5]) 2) 0 2 = 1 := by decide +kernel
theorem wit_BanksSwitch_allowed : SwitchAllowed (ttC true) ∧ SwitchAllowed { ttC false with nslot0 := 2, nslot1 := 1 } ∧
    ¬ SwitchAllowed { ttC true with nslot1 := 0 } := by unfold SwitchAllowed; decide +kernel
theorem wit_BanksSwitch_due : ∀ k : Fin 2, let c := { ttC (decide (k = 1)) with sw := some 119 };
    let u := uk 3 (sA.setTtc 1 c);
    u.running = true ∧ u.ttc 1 = c ∧ c.sw = some 119 ∧ (c.av = true → 0 < c.round c.active) := by decide +kernel

/-- The second slot of the class of sY begins at 3840; a late job with RUNLIM 1; a deferral window. -/
def sLate (j : Job) : State := (withJob j).setTtc 0 { ttB with runlim := 1 }
theorem test_slotBoundary : (let v := nx (exec (.slotBoundary 4000 0) sY); ((v.ttc 0).posAt, (v.ttc 0).posSlot) = (3840, 1)) := by decide +kernel
theorem test_overrun : causeOf (nx (exec (.overrun 340 2) (sLate { jobA with lateAt := some 100 }))) = some 7 ∧
    (nx (exec (.overrun 339 2) (sLate { jobA with lateAt := some 100 }))).lnd.nq = [] := by decide +kernel
theorem test_holdlim : causeOf (nx (exec (.holdlim 130 2) (sY { jobE with holdEnd := some 125, sems := [4] }))) = some 8 ∧
    ((nx (exec (.holdlim 130 2) (sY { jobE with holdEnd := some 125 }))).job 2).map Job.holdEnd = some none := by decide +kernel
theorem wit_SlotsAndOverruns : (let u := sY.upTo 4000 (kSub 3);
      u.running = true ∧ 0 < (u.ttc 0).round (u.ttc 0).active ∧ (u.ttc 0).av = true ∧ ((u.ttc 0).current u.tally).2 = 3840 ∧
        (u.ttc 0).posAt = 0 ∧ (∀ k : Fin 4, (u.ttc k).runlim = 0) ∧ (u.job 2) = some jobE) ∧
    (let u := uk 3 sY; (u.ttc 0).posAt = 0 ∧ ((u.ttc 0).current u.tally).2 = 0) ∧ ((uk 3 sA).ttc 1).av = false ∧
    (∀ k : Fin 2, let j := { jobA with lateAt := some 100 };
      let u := (sLate j).upTo (339 + k) (kSub 3);
      u.running = true ∧ u.job 2 = some j ∧ (u.ttc 0).runlim = 1 ∧ j.calls = [] ∧ (100 + 240 * 1 ≤ u.tally ↔ k = 1)) ∧
    (∀ k : Fin 3, let j := { jobE with holdEnd := some (if k = 0 then 131 else 125), sems := if k = 2 then [] else [4] };
      let u := (sY j).upTo 130 (kSub 3);
      u.running = true ∧ u.job 2 = some j ∧ (j.holds = true ↔ k ≠ 2) ∧ u.preemptDue 2 j 125 = true) := by decide +kernel

/-- Two CLASSIFY calls of a job of the classifier's class, the first on tile 3 since 100; one of a segment that does not exist. -/
def clA (op : CallOp) (st : Option (Stamp × Nat)) : Call := { callA with op := op, started := st }
def jobCl (c : Call) : Job := { jobA with calls := [c, { c with id := 5, gd := 9 }], nextCall := 6 }
def epB : Epoch :=
  { epA with psets := [0x400000], plans := [0x400000], ens := [0x400000], models := [0x400000], tvocab := [some 0, none, none, none] }
def sCl (c : Call) : State := { withJob (jobCl c) with doms := [(0, Domain.init true), (5, { domA with ep0 := some epB })] }
def sNs : State :=
  { withJob (jobCl callA) (withInst { instA with answer := false }) with
    man := { sA.man with entries := [(3, { entA with plast := true })] } }
theorem test_callStart : ((nx (exec (.callStart 120 1) (sCl (clA .classify none)))).job 2).map
    (fun j => j.calls.map fun c => c.started) = some [some (120, 0), none] := by decide +kernel
/-- A segment that does not exist: status NOSEG in g6, the other call still outstanding. -/
theorem test_callComplete : regOf (nx (exec (.callComplete 120 2 4) sNs)) 6 = some (2, false) ∧
    ((nx (exec (.callComplete 120 2 4) sNs)).job 2).map (fun j => j.calls.map Call.id) = some [5] := by decide +kernel
theorem wit_CallsRun : (let u := uk (clsSub 1) (sCl (clA .classify none));
      u.running = true ∧ u.TabsSound ∧
        ((firstBy (callKey u 1 u.tally) (u.callQueue 1 u.tally)).map fun q => (q.slot, q.call.id)) = some (2, 4) ∧
        u.freeUnit .classify = some 0) := by unfold State.TabsSound Rising; decide +kernel
theorem wit_CallsRun_complete : (let u := uk (sNs.callSub 2 4) sNs;
      u.running = true ∧ u.mem.en = true ∧ u.job 2 = some (jobCl callA) ∧ ((jobCl callA).calls.find? fun x => x.id = 4) = some callA ∧
        u.inst 7 = some { instA with answer := false } ∧ noSeg (u.entry 3) { instA with answer := false } callA.seg = true) ∧
    (let c := clA .classify none; (u1 (sCl c)).job 2 = some (jobCl c)) ∧
    (let c := clA .tree (some (100, 3));
      let u := u1 (withJob (jobCl c));
      u.job 2 = some (jobCl c) ∧ u.inst 7 = some instA ∧ u.jobEpoch (jobCl c) = some epA ∧ c.obj epA = none) ∧
    (let c := clA .tree (some (100, 3));
      let u := u1 (sCl c);
      u.job 2 = some (jobCl c) ∧ u.inst 7 = some instA ∧ u.jobEpoch (jobCl c) = some epB ∧ (c.obj epB).isSome = true ∧
        (match u.runCall 3 2 (jobCl c) instA c with
          | .done _ _ _ _ _ _ => true
          | _ => false) = true) := by decide +kernel
/-- A view waits, with a free view slot and with none. -/
def vwA : View := ⟨hA, 5, 1, 0, [17, 18], [], 0, [], [], false, false, 90, none, false, false⟩
def sVw (full : Bool) : State :=
  { sA with txt := { sA.txt with views := [vwA] ++ if full then (List.range 1024).map fun n => { vwA with k := n + 1, built := true, slot := some n } else [] } }
theorem test_viewBuild : (nx (exec (.viewBuild 120 0) (sVw false))).txt.views.map (fun v => (v.built, v.slot)) = [(true, some 0)] := by decide +kernel
theorem wit_CallsRun_views : (let u := uk 7 (sVw false);
      u.alive = true ∧ u.txtEn = true ∧ bitAt u.txt.fenced 20 = false ∧ u.nextView u.tally = some vwA ∧ u.freeVSlot = some 0 ∧
        u.live hA = some 3) := by decide +kernel
theorem wit_CallsRun_views_full : (uk 7 (sVw true)).nextView 120 = some vwA ∧ (uk 7 (sVw true)).freeVSlot = none := by
  refine ⟨by decide +kernel, ?_⟩
  have h : (uk 7 (sVw true)).txt.views = [vwA] ++ (List.range 1024).map fun n => { vwA with k := n + 1, built := true, slot := some n } := rfl
  simp only [State.freeVSlot, h, List.find?_eq_none]
  intro n hn
  have h1 := List.mem_range.1 hn
  simp [vwA, h1]
/-- The last dependence of a top graph, which ends, and of a subgraph of record 8, whose task 1 ends with it. -/
def sRvEnd (p : Option (Nat × Nat)) : State :=
  { sRv with dsp := { sRv.dsp with insts := [(7, { instA with met := 13, done := 15, parent := p }), (8, { instA with met := 4 })] } }
def rvP (k : Fin 2) : Option (Nat × Nat) := if k = 0 then none else some (8, 1)
theorem wit_GraphsStartAndResolve_end : (∀ k : Fin 2, let u := uk 4 (sRvEnd (rvP k));
      u.running = true ∧ (u.dsp.resolve.find? fun r => decide (r.inst = 7) && decide (r.at' + 4 ≤ u.tally)) = some ⟨7, 100, 2⟩ ∧
        u.inst 7 = some { instA with met := 13, done := 15, parent := rvP k } ∧ u.inst 8 = some { instA with met := 4 }) ∧
    (13 ||| 2 : BitVec 64) = 15 ∧ (4 ||| (1#64 <<< 1) : BitVec 64) = 6 ∧ instA.ntask = 4 := by decide +kernel
/-- The frame's place lies in domain 0's region, or in domain 5's. -/
theorem wit_JobsPlaced_frame : (let u := uk 4 (sRdy (some 5)); u.areaOk (u.frameAt 5) frameSize = true) ∧
    (let s := sRdy (some 5); let u := uk 4 { s with dsp := { s.dsp with saveBase := 0x100000 } };
      u.areaOk (u.frameAt 5) frameSize = false ∧ u.running = true ∧ u.dspEn = true ∧ u.mem.en = true ∧ u.nextJob u.tally = some ⟨7, 1, 80, some 5⟩ ∧
        u.placeSlot u.tally = some 0) := by decide +kernel
/-- A completion of a call whose job is gone; a view whose slot's memory is allowed, and one of another domain's. -/
theorem wit_CallsRun_orphan : let u := sA.upTo 120 (kSub (sA.callSub 2 4)); u.running = true ∧ u.mem.en = true ∧ u.job 2 = none := by
  decide +kernel
theorem wit_CallsRun_views_area : (let u := uk 7 (sVw false); u.mem.en = true ∧ u.areaOk (u.txt.viewBase + 0 * frameSize) frameSize = true) ∧
    (let u := uk 7 { sVw false with txt := { (sVw false).txt with viewBase := 0x100000 } };
      u.alive = true ∧ u.txtEn = true ∧ u.mem.en = true ∧ u.nextView u.tally = some vwA ∧ u.freeVSlot = some 0 ∧ u.live hA = some 3 ∧
        u.areaOk (u.txt.viewBase + 0 * frameSize) frameSize = false) := by decide +kernel

/-! ### The memory side -/

/-- A request waits on port 2 in front of another, tags 0 and 7 outstanding, the next tag 7. -/
def rq (w : Bool) (l : Nat) (who : Purpose := .snap 0) : MReq := ⟨w, l, 0x1122334455667788, BitVec.allOnes 128, 0, who⟩
def sPt (q : MReq) : State :=
  sJ.setPort 2 { waitq := [q, rq false 0x300], out := [(0, rq true 0), (7, rq false 0)], nextTag := 7, shown := none, resp := none, errNext := false }
/-- A load of 8 bytes at 0x100008 into g6 is outstanding under tag 7. -/
def jobL : Job := { jobA with ldms := [⟨3, 6, 0x100008, 8⟩, ⟨4, 9, 0x100010, 4⟩] }
def sLd : State :=
  (withJob jobL).setPort 2 { waitq := [], out := [(0, rq true 0), (7, rq false 0x100000 (.ldm 2 3 7))], nextTag := 8, shown := none, resp := none, errNext := false }
/-- A region descriptor's first half is staged: V, base 0x200000. -/
def sD0 (w : Word) : State := { sJ with mem := { sJ.mem with sel := 1, d0 := w } }

theorem test_memoryRequest : ((nx (exec (.memoryRequest 120 2) (sPt (rq true 0x100)))).byte 0x100) = 0x88 ∧
    ((nx (exec (.memoryRequest 120 2) (sPt (rq true 0x100)))).port 2).waitq.map MReq.line = [0x300] := by decide +kernel
theorem test_memoryResponse : regOf (nx (exec (.memoryResponse 120 2 false 7 (0x77665544332211 * 2 ^ 64) 2 false) sLd)) 6 =
    some (0x77665544332211, true) := by decide +kernel
theorem test_scFlush : (nx (exec (.scFlush 120 0x10003) sJ)).mem.flushes = 1 := by decide +kernel
theorem test_rgnD1 : (nx (exec (.rgnD1Write 120 0x0000000500000010) (sD0 0x200007))).region 1 = ⟨true, true, true, 0x200000, 16, 5, 1⟩ ∧
    (nx (exec (.rgnD1Write 120 0x0000000600000010) (sD0 0x200007))).region 1 = ⟨true, true, true, 0x200000, 16, 6, 2⟩ ∧
    (nx (exec (.rgnD1Write 120 0x0000000500000010) (sD0 7))).mem.viol = 1 := by decide +kernel
theorem test_rgnD0 : (nx (exec (.rgnD0Write 120 0x55) sA)).mem.d0 = 0x55 := by decide +kernel
theorem wit_MemoryPortTransfers : (∀ k : Fin 3, let q := if k = 0 then rq true 0x100 else if k = 1 then rq false 0x100000 (.ldm 2 3 7) else rq false 0x8000000 (.ldm 2 3 7);
      let u := uk 12 (sPt q);
      u.alive = true ∧ u.mem.en = true ∧ (u.port 2).waitq.map MReq.line = [q.line, 0x300] ∧ (u.port 2).out.length < 256 ∧ (u.port 2).shown = none ∧
        (u.reqOk q = true ↔ k ≠ 2) ∧ u.MemSound) := by unfold State.MemSound; decide +kernel
theorem wit_MemoryPortTransfers_response : let u := u0 sLd;
    u.alive = true ∧ ((Tab.get (u.port 2).out 7).map fun q => (q.write, q.who)) = some (false, .ldm 2 3 7) ∧ (u.port 2).errNext = false ∧
      u.job 2 = some jobL ∧ jobL.inst = 7 ∧ (jobL.ldms.find? fun x => x.id = 3) = some ⟨3, 6, 0x100008, 8⟩ ∧
      ((Tab.get (u.port 2).out 0).map fun q => q.write) = some true := by decide +kernel
theorem wit_MemoryPortTransfers_flush : let u := u0 sJ;
    u.alive = true ∧ u.portFree = true ∧ u.mem.en = true ∧ bitAt (0x10003 : Word) 16 = true ∧ fld (0x10003 : Word) 0 16 = 3 ∧ (u.entry 3).state ≠ .free ∧
      u.ctlPage 3 = some ⟨0x100000, 5, 1, 0, 0, 0, false⟩ ∧ u.pageOk 0x100000 5 1 = true ∧ u.ownedWr 5 0x100000 65536 = true ∧
      u.MemSound ∧ u.tally < 2 ^ 64 ∧ (u.entry 3).dom < 256 ∧ (u.entry 3).epoch < 65536 := by unfold State.MemSound; decide +kernel
/-- Regions: within the window, without size, behind the window, meeting region 0, and one that is not valid. -/
theorem wit_MemoryPortTransfers_region : (∀ k : Fin 2, let u := u0 (sD0 (if k = 0 then 0x200007 else 7));
      u.alive = true ∧ u.portFree = true ∧ u.mem.sel = 1 ∧ bitAt u.mem.d0 0 = true ∧ fld (0x0000000500000010 : Word) 0 24 = 16 ∧
        fld (0x0000000500000000 : Word) 0 24 = 0 ∧ fld (0x0000000500003FFF : Word) 0 24 * 65536 < u.mem.win * 2 ^ 30 ∧
        u.mem.win * 2 ^ 30 < 0x200000 + fld (0x0000000500004000 : Word) 0 24 * 65536 ∧ u.mem.rgns.map (fun p => (p.1, p.2.v, p.2.base, p.2.size)) =
          [(0, true, 0, 0x10), (1, true, 0x100000, 0x100)]) := by decide +kernel

/-! ### Domains and images -/

def od (w2 w3 w4 : Nat) : List Word := [0, BitVec.ofNat 64 w2, BitVec.ofNat 64 w3, BitVec.ofNat 64 w4]
/-- CHUNK 4, DEADLINE 100, CLOSE 10. -/
def w3g : Nat := 4 + 100 * 2 ^ 16 + 10 * 2 ^ 36
def sNe : State := { sA with man := { sA.man with entries := [] } }
/-- A second live epoch, one being loaded, one that was active and is not any more. -/
def ep8 : Epoch := { epA with num := 8, everAct := false }
def ep9 : Epoch := { epA with num := 9, live := false, everAct := false, loadCmd := some 4 }
def sEp (e : Epoch) (s : State := sA) : State := { s with doms := [(0, Domain.init true), (5, { domA with ep1 := some e })] }
def sEpOff (e : Epoch) : State := { sNe with doms := [(0, Domain.init true), (5, { domA with active := none, ep1 := some e })] }
def sLdg : State := withOp 0x22 (sEp ep9)

theorem test_domOpen : ((nx (exec (.domOpen 120) (cm 0x20 0 (od 9 w3g 3)))).domOf 9).ramp = ⟨4, false, false, false, 100, 10⟩ ∧
    answerOf (nx (exec (.domOpen 120) (cm 0x20 0 (od 5 w3g 3)))) = some (0x18, 0) ∧
    answerOf (nx (exec (.domOpen 120) (cm 0x20 0 (od 9 0 3)))) = some (0x0A, 0) := by decide +kernel
theorem test_domClose : ((nx (exec (.domClose 120) (cm 0x21 0 [0, 5] sNe))).domOf 5).isOpen = false ∧
    answerOf (nx (exec (.domClose 120) (cm 0x21 0 [0, 5]))) = some (3, 0) := by decide +kernel
theorem test_imgLoad : answerOf (nx (exec (.imgLoad 120) (cm 0x22 5 [0, 0x500001, 9]))) = some (0x0A, 0) ∧
    answerOf (nx (exec (.imgLoad 120) (cm 0x22 5 [0, 0x500000, 9] (sEp ep8)))) = some (3, 0) := by decide +kernel
theorem test_imgLoadDone : (((nx (exec (.imgLoadDone 120 ⟨5, none⟩) sLdg)).domOf 5).epoch true).map Epoch.live = some true := by decide +kernel
theorem test_imgActivate : ((nx (exec (.imgActivate 120) (cm 0x23 5 [0, 8] (sEp ep8)))).domOf 5).active = some true := by decide +kernel
theorem test_imgRetire : (((nx (exec (.imgRetire 120) (cm 0x24 5 [0, 8] (sEp ep8)))).domOf 5).epoch true).isNone = true ∧
    answerOf (nx (exec (.imgRetire 120) (cm 0x24 5 [0, 7] (sEp ep8)))) = some (3, 0) := by decide +kernel
theorem wit_DomainsAndEpochs : headsOk (cm 0x20 0 (od 9 w3g 3)) 0x20 0 (od 9 w3g 3) ∧ headsOk (cm 0x20 0 (od 5 w3g 3)) 0x20 0 (od 5 w3g 3) ∧
    headsOk (cm 0x20 0 (od 9 0 3)) 0x20 0 (od 9 0 3) ∧ ((u0 (cm 0x20 0 (od 9 w3g 3))).domOf 9).isOpen = false ∧
    ((u0 (cm 0x20 0 (od 5 w3g 3))).domOf 5).isOpen = true ∧ fld (BitVec.ofNat 64 w3g) 0 9 = 4 ∧ fld (BitVec.ofNat 64 w3g) 16 20 = 100 ∧
    fld (BitVec.ofNat 64 w3g) 36 24 = 10 ∧ bitAt (BitVec.ofNat 64 w3g) 10 = false ∧ fld (BitVec.ofNat 64 w3g) 12 4 = 0 ∧
    fld (BitVec.ofNat 64 w3g) 60 4 = 0 ∧ ¬ 1 ≤ fld (0 : Word) 0 9 := by decide +kernel
theorem wit_DomainsAndEpochs_close : (∀ k : Fin 4, let d : Word := [0, 9, 5, 5].getD k 0;
      let s := cm 0x21 0 [0, d] (if k = 3 then sNe else sA);
      headsOk s 0x21 0 [0, d] ∧ (((u0 s).domOf d.toNat).isOpen = false ↔ k = 1) ∧ ((u0 s).inuse d.toNat = 0 ↔ k ≠ 2) ∧
        (u0 s).sharesVocab d.toNat = false) := by decide +kernel
theorem wit_DomainsAndEpochs_load : headsOk (cm 0x22 9 [0, 0x500000, 7]) 0x22 9 [0, 0x500000, 7] ∧
    ((u0 (cm 0x22 9 [0, 0x500000, 7])).domOf 9).isOpen = false ∧ headsOk (cm 0x22 5 [0, 0x500000, 9] (sEp ep8)) 0x22 5 [0, 0x500000, 9] ∧
    (((u0 (cm 0x22 5 [0, 0x500000, 9] (sEp ep8))).domOf 5).ep1.map Epoch.num) = some 8 ∧
    headsOk (cm 0x22 5 [0, 0x500000, 7]) 0x22 5 [0, 0x500000, 7] ∧ ((u0 (cm 0x22 5 [0, 0x500000, 7])).domOf 5).ep1.isNone = true ∧
    (((u0 (cm 0x22 5 [0, 0x500000, 7])).domOf 5).ep0.map Epoch.num) = some 7 ∧
    headsOk (cm 0x22 5 [0, 0x500000, 9]) 0x22 5 [0, 0x500000, 9] ∧
    ((u0 (cm 0x22 5 [0, 0x500000, 9])).imageFail ((u0 (cm 0x22 5 [0, 0x500000, 9])).readDir 5 0x500000)).isSome = true := by decide +kernel
theorem wit_DomainsAndEpochs_activate : (∀ k : Fin 4, let n : Word := [8, 7, 6, 7].getD k 0;
      let s := if k = 3 then sEpOff ep8 else sEp ep8;
      headsOk (cm 0x23 5 [0, n] s) 0x23 5 [0, n] ∧ ((u0 (cm 0x23 5 [0, n] s)).domOf 5).isOpen = true ∧
        ((u0 (cm 0x23 5 [0, n] s)).domOf 5).liveSlot n.toNat = [some true, some false, none, some false].getD k none ∧
        ((u0 (cm 0x23 5 [0, n] s)).domOf 5).active = (if k = 3 then none else some false)) ∧
    ep8.everAct = false ∧ epA.everAct = true ∧
    (∀ k : Fin 3, let n : Word := [8, 7, 6].getD k 0;
      headsOk (cm 0x24 5 [0, n] (sEp ep8)) 0x24 5 [0, n] ∧ (u0 (cm 0x24 5 [0, n] (sEp ep8))).epCount 5 true = 0) ∧
    headsOk (cm 0x23 9 [0, 8]) 0x23 9 [0, 8] ∧ headsOk (cm 0x24 9 [0, 8]) 0x24 9 [0, 8] := by decide +kernel
theorem wit_DomainsAndEpochs_loaded : let u := uk 1 sLdg;
    u.running = true ∧ u.mem.en = true ∧ (u.domOf 5).epoch true = some ep9 ∧ ep9.loadCmd = some 4 ∧
      ((u.domOf 5).epoch false).map Epoch.loadCmd = some none ∧ u.OpenIs 4 (opA 0x22) := by unfold State.OpenIs; decide +kernel

/-! ### Fences and swaps -/

/-- A swap register's value: unit n with GO. -/
def go (n : Nat) : Word := BitVec.ofNat 64 (n + 256)
def fen1 : State := nx (exec (.tokSwap 110 (go 2)) sA)
def uf (k n : Nat) (s : State := sA) : State := cm 0x31 0 [0, BitVec.ofNat 64 (k + 16 * n)] s
def sUf : State := nx (exec (.unitFence 120) (uf 0 2))
def gw : Word := BitVec.ofNat 64 (0x1000 + 2 ^ 48 + 2 ^ 49)
def sGoff : State := { sA with cls := { sA.cls with en := false }, tre := { sA.tre with en := false } }
def sGrun : State := { sGoff with cls := { sGoff.cls with goldGo := true }, tre := { sGoff.tre with goldGo := true } }

theorem test_tokSwap : (nx (exec (.tokSwap 120 (go 2)) sA)).unitFenced 0 2 = true ∧
    (nx (exec (.tokSwap 120 (go 3)) fen1)).unitFenced 0 3 = false := by decide +kernel
theorem test_clsSwap : (nx (exec (.clsSwap 120 (go 2)) sA)).unitFenced 1 2 = true ∧
    (nx (exec (.clsSwap 120 (go 40)) sA)).cls.swapGo = false := by decide +kernel
theorem test_treSwap : (nx (exec (.treSwap 120 (go 2)) sA)).unitFenced 2 2 = true := by decide +kernel
theorem test_pilSwap : (nx (exec (.pilSwap 120 (go 0)) sJ)).unitFenced 5 0 = true ∧ (nx (exec (.pilSwap 120 (go 0)) sJ)).goReads 5 = true := by decide +kernel
theorem test_frySwap : (nx (exec (.frySwap 120 (go 2)) sA)).unitFenced 6 2 = true := by decide +kernel
theorem test_txtFence : (nx (exec (.txtFence 120 (go 3)) sA)).unitFenced 4 3 = true ∧
    (nx (exec (.txtFence 120 (go 30)) sA)).txt.fenced = sA.txt.fenced := by decide +kernel
theorem test_fstFence : (nx (exec (.fstFence 120 (go 1)) sA)).unitFenced 3 1 = true := by decide +kernel
theorem test_unitFence : sUf.unitFenced 0 2 = true ∧ answerOf (nx (exec (.unitFence 120) (uf 0 2 fen1))) = some (3, 0) ∧
    answerOf (nx (exec (.unitFence 120) (uf 7 1))) = some (0x0A, 0) := by decide +kernel
/-- 49 counts after the fence the spare serves, the command completes and GO reads 0 (R320). -/
theorem test_swapped : (nx (exec (.swapped 169 0 2) sUf)).goReads 0 = false ∧ (nx (exec (.swapped 169 0 2) sUf)).wch.swaps = [] ∧
    (nx (exec (.swapped 168 0 2) sUf)).goReads 0 = true := by decide +kernel
theorem test_clsGold : (nx (exec (.clsGold 120 gw) sGoff)).cls.goldGo = true ∧ (nx (exec (.clsGold 120 gw) sA)).cls.goldGo = false ∧
    (nx (exec (.clsGold 120 gw) sA)).cls.goldAddr = 0x1000 := by decide +kernel
theorem test_treGold : (nx (exec (.treGold 120 gw) sGoff)).tre.goldGo = true ∧ (nx (exec (.treGold 120 gw) sGoff)).tre.swapChk = true := by decide +kernel
theorem test_goldenRunDone : bitAt (nx (exec (.goldenRunDone 120 false 0x8) sGrun)).cls.goldPass 3 = false ∧
    bitAt (nx (exec (.goldenRunDone 120 false 0x8) sGrun)).cls.goldPass 2 = true ∧
    (nx (exec (.goldenRunDone 120 false 0x8) sGrun)).unitFenced 1 3 = true := by decide +kernel
theorem wit_UnitsFencedAndSwapped : bitAt (go 2) 8 = true ∧ (u0 sA).alive = true ∧ (u0 sJ).alive = true ∧
    (∀ k : Fin 5, let n := [0, 1, 2, 5, 6].getD k 0; (u0 sJ).goReads n = false ∧ (u0 sJ).isFenced n 2 = false ∧ (u0 sJ).freeSpare n ≠ none) ∧
    (u0 fen1).alive = true ∧ (u0 fen1).goReads 0 = true ∧ 31 < fld (go 40) 0 6 ∧ 21 < fld (go 30) 0 5 ∧ (u0 sA).unitFenced 4 3 = false ∧
    (u0 sA).textJobs 3 = [] ∧ (u0 sJ).portFree = true ∧ (u0 sA).portFree = true ∧ (u0 sJ).swapsOf 0 2 = [] ∧ (u0 (nx (exec (.txtFence 110 (go 3)) sA))).unitFenced 4 3 = true ∧ (u0 sA).unitFenced 3 1 = false ∧
    (u0 (nx (exec (.fstFence 110 (go 1)) sA))).unitFenced 3 1 = true ∧ fld (go 1) 0 1 = 1 := by decide +kernel
theorem wit_UnitsFencedAndSwapped_command : (∀ k : Fin 8, let n : Word := BitVec.ofNat 64 (k.val + 16);
      headsOk (uf k 1) 0x31 0 [0, n] ∧ fld n 0 4 = k.val ∧ fld n 4 6 = 1 ∧ (u0 (uf k 1)).goReads k = false ∧
        (u0 (uf k 1)).isFenced k 1 = false ∧ (u0 (uf k 1)).textJobs 1 = [] ∧ (u0 (uf k 1)).swapsOf k 1 = [] ∧ ((u0 (uf k 1)).freeSpare k).isSome = decide (k ∉ [3, 4, 7])) ∧
    headsOk (uf 0 2 fen1) 0x31 0 [0, 32] ∧ (u0 (uf 0 2 fen1)).goReads 0 = true := by decide +kernel
/-- No spare: every spare automaton is fenced. -/
theorem wit_UnitsFencedAndSwapped_none : let s := uf 2 1 { sA with tre := { sA.tre with fenced := 0xFFFFFFFF } };
    headsOk s 0x31 0 [0, 18] ∧ (u0 s).goReads 2 = false ∧ (u0 s).freeSpare 2 = none := by decide +kernel
theorem wit_UnitsFencedAndSwapped_swapped : (uk (kindSub 0) sUf).running = true ∧
    ((uk (kindSub 0) sUf).wch.swaps.map fun x => (x.kind, x.num, x.due, x.cmd)) = [(0, 2, some 169, some sA.lnd.nextId)] ∧ (uk (kindSub 0) sUf).tally < 169 ∧
    169 ≤ (sUf.upTo 169 (kSub (kindSub 0))).tally ∧ (sUf.upTo 169 (kSub (kindSub 0))).tre.swapChk = false ∧ (sUf.upTo 169 (kSub (kindSub 0))).running = true := by decide +kernel
theorem wit_UnitsFencedAndSwapped_gold : bitAt gw 48 = true ∧ (u0 sGoff).alive = true ∧ (u0 sGoff).portFree = true ∧ (u0 sGoff).cls.en = false ∧ (u0 sGoff).tre.en = false ∧
    (u0 sA).cls.en = true ∧ (u0 sA).tre.en = true ∧ (uk 8 sGrun).running = true ∧ (uk 8 sGrun).cls.goldGo = true ∧ (uk 10 sGrun).running = true ∧ (uk 10 sGrun).tre.goldGo = true ∧
    (uk 10 sGrun).wch.swaps = [] := by decide +kernel

/-! ### Snapshots and injection -/

def snS (a : Nat) (s : State := sA) : State := cm 0x33 0 [0, BitVec.ofNat 64 a] s
def sn1 : Snap := ⟨3, 90, false, 0x1000, some 4, 8⟩
def sn2 : Snap := { sn1 with seq := 4, cmd := none }
def sSn (l : List Snap) : State := { sA with cnt := { sA.cnt with snaps := l } }
/-- A snapshot each 2 times 2,400 counts into a ring of 4 at 0x2000. -/
def sAu (l : List Snap) : State :=
  { sA with cnt := { sA.cnt with snaps := l, auto := true, period := 2, autoAt := 4800, base := 0x2000, nsnap := 4, seq := 6 } }
def sDn : State := withOp 0x33 (sSn [{ sn1 with left := 0 }, sn2])
def inW (p m n : Nat) : List Word := [0, BitVec.ofNat 64 (p + m * 2 ^ 16 + n * 2 ^ 24), 5]
def inS (p m n : Nat) (s : State) : State := cm 0x32 0 (inW p m n) s
def sI : State := { sA with lnd := { sA.lnd with injEn := true } }
def armA : Armed := ⟨0x102, 1, 2, 110, 0, 0, 4⟩
def sAr (a : Armed) : State := { withOp 0x32 sI with inj := ⟨some a, 3⟩ }
def armL : Armed := { armA with mode := 2 }

theorem test_snapshot : (nx (exec (.snapshot 120) (snS 0x1000))).cnt.snaps.map Snap.addr = [0x1000] ∧
    answerOf (nx (exec (.snapshot 120) (snS 0x100000))) = some (0x0A, 0) ∧
    answerOf (nx (exec (.snapshot 120) (snS 0x1000 (sSn [sn1, sn2])))) = some (3, 0) := by decide +kernel
theorem test_autoSnapshot : (nx (exec (.autoSnapshot 9700) (sAu []))).cnt.snaps.map (fun x => (x.stamp, x.addr)) = [(9600, 0x2800)] ∧
    (nx (exec (.autoSnapshot 9599) (sAu []))).cnt.snaps = [] := by decide +kernel
theorem test_snapshotWritten : (nx (exec (.snapshotWritten 120) sDn)).cnt.snaps = [sn2] ∧
    answerOf (nx (exec (.snapshotWritten 120) sDn)) = some (0, 90) := by decide +kernel
theorem test_cntClr : ((nx (exec (.cntClr 120 5) { sA with cnt := { sA.cnt with banks := [[⟨9, true, 3, false, true⟩], [⟨8, true, 3, false, true⟩]] } })).cnt.banks.map
      fun b => b.map fun c => (c.value, c.ovf)) = [[(0, false)], [(8, true)]] := by decide +kernel
theorem test_inject : (nx (exec (.inject 120) (inS 0x102 1 2 sI))).inj.armed.map Armed.point = some 0x102 ∧
    answerOf (nx (exec (.inject 120) (inS 0x102 1 2 sA))) = some (4, 0) ∧ answerOf (nx (exec (.inject 120) (inS 0x102 3 2 sI))) = some (0x0A, 0) := by decide +kernel
theorem test_injection : (nx (exec (.injection 120) (sAr armA))).inj = ⟨some { armA with applied := 1 }, 4⟩ ∧
    bitAt (nx (exec (.injection 120) (sAr armA))).wch.lastd 20 = true := by decide +kernel
theorem test_injectionLapse : (nx (exec (.injectionLapse 2500000) (sAr armL))).inj = ⟨some { armL with lapsed := 1 }, 3⟩ := by decide +kernel
theorem test_injDisarm : (nx (exec (.injDisarm 120 1) (sAr armA))).inj = ⟨none, 3⟩ ∧
    answerOf (nx (exec (.injDisarm 120 1) (sAr armA))) = some (0x0E, 0) := by decide +kernel
theorem wit_SnapshotsAndInjections : headsOk (snS 0x1000) 0x33 0 [0, 0x1000] ∧ (u0 (snS 0x1000)).owned 0 0x1000 1024 = true ∧
    headsOk (snS 0x100000) 0x33 0 [0, 0x100000] ∧ (u0 (snS 0x100000)).owned 0 0x100000 1024 = false ∧
    headsOk (snS 0x1000 (sSn [sn1, sn2])) 0x33 0 [0, 0x1000] ∧ (u0 (snS 0x1000 (sSn [sn1, sn2]))).owned 0 0x1000 1024 = true ∧
    (u0 (snS 0x1000)).cnt.snaps = [] ∧ (u0 (snS 0x1000 (sSn [sn1, sn2]))).cnt.snaps.length = 2 ∧
    (let u := (sAu []).upTo 9700 (kSub 14); u.running = true ∧ u.cnt.auto = true ∧ u.cnt.period = 2 ∧ u.cnt.autoAt = 4800 ∧ u.tally = 9700 ∧
      9600 % (2400 * 2) = 0 ∧ u.cnt.nsnap = 4 ∧ u.cnt.snaps = []) ∧
    ((sAu [sn1, sn2]).upTo 9700 (kSub 14)).cnt.snaps.length = 2 ∧ ((sAu []).upTo 9599 (kSub 14)).tally < 9600 := by decide +kernel
theorem wit_SnapshotsAndInjections_written : (uk 14 sDn).running = true ∧
    ((uk 14 sDn).cnt.snaps.find? fun y => decide (y.left = 0)) = some { sn1 with left := 0 } ∧ (uk 14 sDn).OpenIs 4 (opA 0x33) ∧
    (u0 sA).alive = true ∧ (u0 sA).portFree = true := by unfold State.OpenIs; decide +kernel
theorem wit_SnapshotsAndInjections_inject : headsOk (inS 0x102 1 2 sI) 0x32 0 (inW 0x102 1 2) ∧ headsOk (inS 0x102 1 2 sA) 0x32 0 (inW 0x102 1 2) ∧
    headsOk (inS 0x102 3 2 sI) 0x32 0 (inW 0x102 3 2) ∧ headsOk (inS 0x102 1 2 (sAr armA)) 0x32 0 (inW 0x102 1 2) ∧ (u0 (inS 0x102 1 2 sI)).injEn = true ∧
    (u0 (inS 0x102 1 2 sA)).injEn = false ∧ 2 < instances 1 ∧ (modes 1).contains 1 = true ∧ (modes 1).contains 3 = false ∧
    (u0 (inS 0x102 1 2 (sAr armA))).inj.armed = some armA ∧ (u0 (inS 0x102 1 2 sI)).inj.armed = none := by decide +kernel
theorem wit_SnapshotsAndInjections_applied : (let u := uk (sAr armA).injSub (sAr armA);
      u.running = true ∧ u.inj.armed = some armA ∧ 110 ≤ u.tally ∧ u.pointFenced armA = false) ∧ (u0 (sAr { armA with count := 1 })).inj.armed = some { armA with count := 1 } ∧
    (u0 (sAr armA)).alive = true ∧ (u0 (sAr armA)).portFree = true ∧ (u0 (sAr armA)).OpenIs 4 (opA 0x32) := by unfold State.OpenIs; decide +kernel
theorem wit_SnapshotsAndInjections_lapsed : (∀ k : Fin 2, let a := if k = 0 then armL else { armL with count := 1 };
    let u := (sAr a).upTo 2500000 (kSub 14);
    u.running = true ∧ u.inj.armed = some a ∧ a.from' + 2400 * (a.applied + a.lapsed) + 2400000 ≤ u.tally ∧ a.mode = 2) ∧
    ((sAr armL).upTo 2500000 (kSub 14)).OpenIs 4 (opA 0x32) := by unfold State.OpenIs; decide +kernel
/-- A text unit and a feature unit that run a call; the swap of a core that still holds a job, and of an idle one. -/
theorem wit_UnitsFencedAndSwapped_calls : (let u := u0 (sCl (clA .matchOp (some (100, 3))));
      u.alive = true ∧ u.portFree = true ∧ u.TabsSound ∧ u.unitFenced 4 3 = false ∧ u.textJobs 3 = [2]) ∧
    (let u := u0 (sCl (clA .feature (some (100, 17))));
      u.alive = true ∧ u.portFree = true ∧ u.TabsSound ∧ u.unitFenced 3 1 = false ∧ (u.job 2).isSome = true) := by
  unfold State.TabsSound Rising; decide +kernel
theorem wit_UnitsFencedAndSwapped_core : (let u := (nx (exec (.pilSwap 110 (go 0)) sJ)).upTo 120 (kSub (kindSub 5));
      u.running = true ∧ u.wch.swaps.map (fun x => (x.kind, x.num, x.due)) = [(5, 0, none)] ∧ (u.job 2).isSome = true) ∧
    (let u := (nx (exec (.pilSwap 110 (go 0)) sA)).upTo 2158 (kSub (kindSub 5));
      u.running = true ∧ u.wch.swaps.map (fun x => (x.kind, x.num, x.due, x.since)) = [(5, 0, none, 110)] ∧
        (∀ k, k < 4 → u.job (4 * 0 + k) = none ∧ (u.slot (4 * 0 + k)).free ≤ 110) ∧ 110 + 2048 ≤ u.tally) := by decide +kernel

/-! ### The Logbook -/

def rc (n : Nat) : LRec := ⟨1, 2, 3, 5, 1, false, 10, 20, n, 1, 7, 8, 9, 0, false⟩
/-- A mounted Logbook whose device holds records 28 and 29 in slots 5 and 6. -/
def lgA : Logbook :=
  { sA.log with en := true, mounted := true, cap := 4096, head := 7, nextSeq := 30, boot := 2, dev := [(5, some (rc 28)), (6, some (rc 29))] }
def sL (l : Logbook := lgA) (st co : List LRec := []) : State := { sA with log := l, wch := { sA.wch with staging := st, coal := co } }
def late : LRec := { rc 0 with first := 2000000 }
def six : List LRec := [rc 1, rc 2, rc 3, rc 4, rc 5, rc 6]
def sSe : State := sL { lgA with op := .sector 0, dev := lgA.dev ++ [(2000, some (rc 3))] }
def sMt : State := sL { sA.log with en := true, mounting := true }
def sRd : State := withOp 0x34 (sL { lgA with reads := [⟨4, 0x3000, 28, 2⟩] })
def sEa : State := withOp 0x36 (sL { lgA with op := .all 0, erasing := true, eraseCmd := some 4, dev := [(0, some (rc 1)), (9, some (rc 2))] })
def sUnal : State := { sA with clk := { sA.clk with talign := false } }
def lrW (n : Nat) : List Word := [0, 0x3000, BitVec.ofNat 64 (28 + n * 2 ^ 32)]
def sNon (n : Nat) (l : Logbook := lgA) : State :=
  cm 0x36 0 [0, BitVec.ofNat 64 n] { sL l with lnd := { sA.lnd with nonce := some 77, armAt := 100 } }

theorem test_coalesceWindowEnd : (nx (exec (.coalesceWindowEnd 2500000) (sL lgA [] [rc 0, late]))).wch.coal = [late] ∧
    (nx (exec (.coalesceWindowEnd 2500000) (sL lgA [] [rc 0, late]))).wch.staging = [{ rc 0 with seq := 30, boot := 2 }] := by decide +kernel
theorem test_logRecordWrite : (nx (exec (.logRecordWrite ⟨120, false⟩) (sL lgA [rc 1, rc 2]))).log.head = 8 ∧
    Tab.get (nx (exec (.logRecordWrite ⟨120, false⟩) (sL { lgA with head := 8 } six))).log.dev 11 = some (some (rc 4)) := by decide +kernel
theorem test_logRecordWrite_full : (nx (exec (.logRecordWrite ⟨120, false⟩) (sL { lgA with head := 4 } [rc 1]))).log.head = 5 ∧
    (nx (exec (.logRecordWrite ⟨120, false⟩) (sL { lgA with head := 5 } [rc 1]))).wch.staging = [rc 1] := by decide +kernel
theorem test_sectorErase : (nx (exec (.sectorErase ⟨120, false⟩) sSe)).log.dev = [(2000, some (rc 3))] := by decide +kernel
theorem test_logMounted : (nx (exec (.logMounted 120 true 0x8000000) sMt)).log.cap = 2095104 ∧ (nx (exec (.logMounted 120 true 0x8000000) sMt)).log.boot = 1 ∧
    (nx (exec (.logMounted 120 false 0x8000000) sMt)).log.failed = true := by decide +kernel
theorem test_writeTimeExceeded : (nx (exec (.writeTimeExceeded 120) sSe)).log.failed = true := by decide +kernel
theorem wit_LogbookWritesAndReads_pin : (uk 14 sA).clk.pfwLow = false ∧ (uk 14 { sJ with clk := { sJ.clk with phase := .bist } }).watchRuns = false ∧
    (uk 14 { sJ with clk := { sJ.clk with phase := .bist } }).clk.absent = false ∧ (uk 14 { sJ with clk := { sJ.clk with phase := .bist } }).clk.pgLogic = true := by decide +kernel
theorem test_powerFailWarning : ((nx (exec (.powerFailWarning ⟨120, true⟩) (sL lgA [rc 1] [rc 0]))).wch.staging.map fun r => r.typ).head? = some 0x0C ∧
    ((nx (exec (.powerFailWarning ⟨120, true⟩) (sL lgA [rc 1] [rc 0]))).wch.staging.map LRec.d0).head? = some 2 := by decide +kernel
theorem test_logReadDone : (nx (exec (.logReadDone 120) sRd)).rd 0x3000 64 = ((rc 28).words).flatMap (fun w => leBytes 8 w.toNat) ∧
    (nx (exec (.logReadDone 120) sRd)).log.reads = [] := by decide +kernel
theorem test_logEraseDone : (nx (exec (.logEraseDone ⟨120, false⟩) sEa)).log.dev = [(0, some (rc 1))] ∧
    answerOf (nx (exec (.logEraseDone ⟨120, false⟩) sEa)) = some (0, 0) := by decide +kernel
theorem test_logMount : (nx (exec (.logMount 120 0x1F) sA)).log.mounting = true ∧ (nx (exec (.logMount 120 0x1F) sA)).log.nor = false ∧
    (nx (exec (.logMount 120 0x1F) sUnal)).log.mounting = false := by decide +kernel
theorem test_logRead : (nx (exec (.logRead 120) (cm 0x34 0 (lrW 2) sL))).log.reads.map LRead.count = [2] ∧
    answerOf (nx (exec (.logRead 120) (cm 0x34 0 (lrW 0) sL))) = some (0x0A, 0) ∧ answerOf (nx (exec (.logRead 120) (cm 0x34 0 (lrW 2)))) = some (4, 0) := by decide +kernel
theorem test_logErase : (nx (exec (.logErase 120) (sNon 77))).log.erasing = true ∧ (nx (exec (.logErase 120) (sNon 78))).lnd.nonce = none ∧
    answerOf (nx (exec (.logErase 120) (sNon 78))) = some (0x17, 0) := by decide +kernel
theorem wit_LogbookWritesAndReads : (let u := (sL lgA [] [rc 0, late]).upTo 2500000 (kSub 14);
      u.watchRuns = true ∧ (u.wch.coal.filter fun c => decide (c.first + 2400000 ≤ u.tally)) = [rc 0] ∧ u.log.atFull = false ∧ u.log.failed = false ∧
        u.wch.staging = []) ∧
    (uk 14 (sL lgA [rc 1, rc 2])).logWrites = true ∧ (uk 14 (sL lgA [rc 1, rc 2])).log.atEnd = false ∧ (uk 14 (sL lgA [rc 1, rc 2])).log.writable = true ∧
    (uk 14 (sL lgA [rc 1, rc 2])).log.head = 7 ∧ (uk 14 (sL lgA [rc 1, rc 2])).log.cap = 4096 ∧ (uk 14 (sL lgA [rc 1, rc 2])).wch.staging = [rc 1, rc 2] := by decide +kernel
theorem wit_LogbookWritesAndReads_ends : let e := sL { lgA with head := 0 } [rc 1]; let w := sL { lgA with head := 5, wrap := true } [rc 1];
    (uk 14 w).log.head = 5 ∧ (uk 14 w).log.atEnd = false ∧ (uk 14 w).log.writable = false ∧ (uk 14 w).logWrites = true ∧ (uk 14 w).wch.staging = [rc 1] ∧
      (uk 14 e).logWrites = true ∧ (uk 14 (sL { lgA with head := 5 } [rc 1])).log.atEnd = true ∧ (uk 14 (sL { lgA with head := 5 } [rc 1])).logWrites = true := by decide +kernel
theorem wit_LogbookWritesAndReads_device : (uk 14 sSe).log.op = .sector 0 ∧ (uk 14 sSe).nvmRuns = true ∧ (uk 14 sSe).log.failed = false ∧
    (uk 14 sSe).log.mounted = true ∧ (uk 14 sMt).nvmRuns = true ∧ (uk 14 sMt).log.mounting = true ∧ (uk 14 sMt).log.dev = [] ∧ (uk 14 sMt).log.ckpts = [] ∧
    (uk 14 sMt).log.full = false ∧ (uk 14 sMt).log.failed = false ∧ (uk 14 sMt).wch.staging = [] ∧ 2 ^ 26 ≤ (0x8000000 : BitVec 32).toNat ∧
    (uk 14 (sL lgA [rc 1] [rc 0])).watchRuns = true := by decide +kernel
theorem wit_LogbookWritesAndReads_read : (uk 14 sRd).log.reads = [⟨4, 0x3000, 28, 2⟩] ∧ (uk 14 sRd).running = true ∧ (uk 14 sRd).nvmRuns = true ∧
    (uk 14 sRd).log.mounted = true ∧ (uk 14 sRd).OpenIs 4 (opA 0x34) ∧ (uk 14 sRd).MemSound ∧ (uk 14 sRd).ownedWr 0 0x3000 128 = true ∧
    (uk 14 sRd).log.dev = [(5, some (rc 28)), (6, some (rc 29))] ∧ (rc 28).seq = 28 ∧ (rc 29).seq = 29 := by
  unfold State.OpenIs State.MemSound; decide +kernel
theorem wit_LogbookWritesAndReads_erased : (uk 14 sEa).log.op = .all 0 ∧ (uk 14 sEa).nvmRuns = true ∧ (uk 14 sEa).log.failed = false ∧
    (uk 14 sEa).log.eraseCmd = some 4 ∧ (uk 14 sEa).OpenIs 4 (opA 0x36) := by unfold State.OpenIs; decide +kernel
theorem wit_LogbookWritesAndReads_commands : bitAt (0x1F : Word) 0 = true ∧ (u0 sA).log.en = false ∧ (u0 sA).clk.talign = true ∧ (u0 sA).clk.fatal = false ∧
    (u0 sA).alive = true ∧ (u0 sA).portFree = true ∧ (u0 sA).log.mounted = false ∧ (u0 sUnal).clk.talign = false ∧ headsOk (cm 0x34 0 (lrW 2) sL) 0x34 0 (lrW 2) ∧ headsOk (cm 0x34 0 (lrW 0) sL) 0x34 0 (lrW 0) ∧
    headsOk (cm 0x34 0 (lrW 2)) 0x34 0 (lrW 2) ∧ headsOk (cm 0x34 0 (lrW 2) (sL { lgA with erasing := true })) 0x34 0 (lrW 2) ∧
    (u0 (cm 0x34 0 (lrW 2) sL)).owned 0 0x3000 128 = true ∧ headsOk (sNon 77) 0x36 0 [0, 77] ∧ headsOk (sNon 78) 0x36 0 [0, 78] ∧
    (u0 (sNon 77)).lnd.nonce = some 77 ∧ (u0 (sNon 77)).lnd.armAt = 100 ∧ (u0 (sNon 77)).log.erasing = false := by decide +kernel

/-! ### Detectors and recovery -/

def dt (code inst idx : Nat) (corr : Bool) : Instr := .detectorTrip 120 (BitVec.ofNat 8 code) (BitVec.ofNat 8 inst) (BitVec.ofNat 32 idx) corr
def sRec (s : State := sJ) : State := { s with wch := { s.wch with recEn := true } }
def sNr (s : State := sJ) : State := { s with wch := { s.wch with recEn := false } }
def lastOf (s : State) : Nat × Nat × Nat := (fld s.wch.lastd 0 8, fld s.wch.lastd 8 8, fld s.wch.lastd 16 4)
def sTf : State := nx (exec (.token 115 2 hA 17 0) sJ)
def sRp : State := { sA with wch := { sA.wch with repairs := [(2, 5, 100), (2, 6, 130)] } }
def sFl : State := nx (exec (.detectorTrip 110 0x12 0 0 false) { sJ with log := lgA })
def sFl2 : State := { sFl with wch := { sFl.wch with staging := [] } }
def recA : Recovery := ⟨.answer, 110, 1, none, 0, none, 0, 9, 5, [], false⟩
/-- A recovery begun at 110: its control page is at 0x100000, of the generation that its list names or of another. -/
def sRv2 (same : Bool) : State :=
  setE { entA with state := .recover, req := { entA.req with recov := some recA } } (if same then sRec sA else (sRec sA).wr 0x100001 [9])

theorem test_detectorTrip_unit : (nx (exec (dt 7 0 0 false) sJ)).unitFenced 5 0 = true ∧
    (nx (exec (.detectorTrip 120 1 2 0 false) sTf)).tok.path.all Flight.fault = true := by decide +kernel
theorem test_detectorTrip_other : ((nx (exec (dt 8 2 5 false) sJ)).pil.slots.map fun p => (Tab.get p.2.words 5).map SWord.pois) = [some true] ∧
    (nx (exec (dt 0x12 0 0 false) sJ)).clk.phase = .failing ∧ (nx (exec (dt 2 0 3 true) sJ)).wch.ce = sJ.wch.ce + 1 ∧
    (nx (exec (dt 5 0 3 false) (sRec))).man.entries.map (fun p => p.2.state) = [.recover] := by decide +kernel
theorem test_repairDone : (nx (exec (.repairDone 120) sRp)).wch.repairs = [(2, 6, 130)] := by decide +kernel
theorem test_blockReset : (nx (exec (.blockReset 120) sFl2)).clk.phase = .blockReset ∧ (nx (exec (.blockReset 120) sFl)).clk.phase = .failing := by decide +kernel
theorem test_recoveryLimit : ((nx (exec (.recoveryLimit 9000000000 3) (sRv2 true))).man.entries.map fun p => p.2.state) = [.stopped] ∧
    ((nx (exec (.recoveryLimit 120 3) (sRv2 true))).man.entries.map fun p => p.2.state) = [.recover] := by decide +kernel
theorem test_restoreEnd : ((nx (exec (.restoreEnd 120 3) (sRv2 true))).man.entries.map fun p => (p.2.state, (p.2.req.recov.map Recovery.restored))) =
      [(.recover, some (some 120))] ∧
    ((nx (exec (.restoreEnd 120 3) (sRv2 false))).man.entries.map fun p => p.2.state) = [.stopped] := by decide +kernel
/-- A unit without a job, one with a job, one that is fenced already, a lane with a transfer. -/
theorem wit_DetectorsAct : (uk 5 sJ).running = true ∧ (uk 5 sJ).TabsSound ∧ codeKind 7 = some 5 ∧ codeKind 1 = some 0 ∧ codeKind 9 = some 1 ∧
    (∀ c : Fin 19, c.val = 0 ∨ c.val = 3 ∨ 0 < instances c) ∧ (uk 5 sJ).unitFenced 5 0 = false ∧ (uk 5 sJ).numberOf 5 0 = some 0 ∧
    (uk 5 sJ).usersOf 5 0 0 = [2] ∧ (uk 5 sJ).live hA = some 3 ∧ (uk 5 sRec).wch.recEn = true ∧ (uk 5 sJ).numberOf 5 1 = some 1 ∧ (uk 5 sJ).usersOf 5 1 1 = [] ∧
    ((uk 6 sTf).tok.path.map fun y => y.onLane 2 (uk 6 sTf).tally) = [true] ∧ (uk 6 sTf).numberOf 0 2 = some 2 ∧
    (uk 5 (nx (exec (dt 7 0 0 false) sJ))).unitFenced 5 0 = true := by unfold State.TabsSound Rising; decide +kernel
theorem wit_DetectorsAct_others : (∀ k : Fin 4, let s := [sRec, sNr, sRec, sNr].getD k sJ;
      (uk 11 s).running = true ∧ ((uk 11 s).entry 3).state = .answer ∧ ((uk 11 s).entry 3).req.recov.isNone = true ∧ (uk 11 s).wch.recEn = decide (k.val % 2 = 0)) ∧
    ((Tab.get ((uk 5 sJ).slot 2).words 5).map SWord.val) = some 0x8877665544332211 ∧ (uk 5 sJ).wch.ceNote = false ∧ (uk 5 sJ).log.ce = false ∧
    ((uk 5 sJ).entry 9).req.recov.isNone = true := by decide +kernel
theorem wit_DetectorsAct_block : (uk 14 sRp).running = true ∧ (uk 14 sFl).clk.phase = .failing ∧ (uk 14 sFl).failPending = true ∧
    (uk 14 sFl2).clk.phase = .failing ∧ (uk 14 sFl2).failPending = false := by decide +kernel
theorem wit_DetectorsAct_recovery : (∀ k : Fin 2, let u := uk 14 (sRv2 (k = 0));
      u.running = true ∧ u.mem.en = true ∧ (u.entry 3).req.recov = some recA ∧ (u.entry 3).state = .recover ∧ recA.first + 2400 * u.wch.reclim > u.tally ∧
        (u.ctlPage 3).map Run.page = some 0x100000 ∧ u.pageOk 0x100000 5 1 = decide (k = 0) ∧ u.owned 5 0x100000 65536 = true) ∧
    recA.first + 2400 * (uk 14 (sRv2 true)).wch.reclim ≤ ((sRv2 true).upTo 9000000000 (kSub 14)).tally := by decide +kernel
/-- The header word that TOKEN 17 of entry 3 reads is under repair until 130. -/
def sBad : State := { sRec sA with wch := { (sRec sA).wch with repairs := [(2, hdrPlace 1, 130)] } }
theorem wit_RepairMarksReaders : let u := u0 sBad;
    u.laneReady 2 120 = true ∧ spaced (u.lastXfer hA) 120 = true ∧ u.lookup hA .token = some 3 ∧ u.epochOf (u.entry 3) = some epA ∧
      (0, 1) ∈ slotStates epA.slotEn (u.four 3) ∧ (2, hdrPlace 1, 130) ∈ u.wch.repairs ∧ u.tally + 3 < 130 ∧ u.tok.path = [] ∧
      u.wch.recEn = true ∧ (u.entry 3).req.recov.isNone = true ∧ (u.entry 3).state = .answer := by decide +kernel
theorem test_repairMarks : ((nx (exec (.token 120 2 hA 17 0) sBad)).man.entries.map fun p => p.2.state) = [.recover] ∧
    (nx (exec (.token 120 2 hA 17 0) sBad)).tok.path.map Flight.fault = [true] := by decide +kernel

/-! ### The Ferry -/

def pk (seq : Nat) (good : Bool := true) : PktHdr := ⟨BitVec.ofNat 16 seq, 3, 0, good, []⟩
/-- Two groups in training since 110; group 1 in phase 3, in phase 4, up with peer 9. -/
def sF1 : State := nx (exec (.fryTrainingStart 110 0x13) sA)
def gF (p : GPhase) (since : Nat) (s : State := sF1) : State := s.setGroup 1 { (s.group 1) with phase := p, since := since }
def sUpF : State := nx (exec (.ferryLinkPacket 119 1 (pk 0) ⟨9, 1⟩ 20 none) (gF (.train 4) 112))
def offA : Offer := ⟨1, 5, 5, 0x00010009, 7, 2, 3, 115, [], false, 0⟩
def sOf (o : Offer := offA) : State := { sUpF with fry := { sUpF.fry with offers := [o] } }
def bldF : Build := { bldA with h := 2, srcBlk := 9, src := 0x00010009 }
/-- Entry 4 waits for the transfer that offA announces. -/
def sWt : State :=
  withOp 0x14 { sOf { offA with got := [1, 2, 3] } with
    man := { sA.man with entries := [(3, entA), (4, { eIn bldF .migIn with mmode := true })], fresh := 5 } }
def migF : MigOut := ⟨90, 4, some 5, 100, false, 10⟩
def sSd : State :=
  { withOp 0x13 sUpF with
    man := { sUpF.man with entries := [(3, { entA with state := .migOut, migH := 2, mmode := true, peer := 9, req := { entA.req with mig := some migF } })] } }
/-- Packets 3, 4 and 5 can be sent again. -/
def sRt : State := sUpF.setGroup 1 { (sUpF.group 1) with retry := [⟨1, 100, 3, 1, 0, ⟨2, 5, 1, .none, false⟩⟩, ⟨1, 101, 4, 2, 0, ⟨3, 5, 1, .none, false⟩⟩, ⟨1, 102, 5, 0, 0, ⟨4, 5, 1, .none, false⟩⟩] }
def sRs : State := { sRt with fry := { sRt.fry with sent := [] } }
def sMir : State := { sUpF with fry := { sUpF.fry with mirbase := 0x1000 } }
def offI (p : PktHdr) : Instr := .offer 120 1 p 5 5 0x00010009 7 2 3
def sentOf (s : State) : List (Nat × Nat) := s.fry.sent.map fun p => (p.group, p.pkt.typ)

theorem test_fryTrainingStart : (sF1.group 1).phase = .train 1 ∧ (nx (exec (.fryTrainingStart 120 0x12) sF1)).fry.en = false ∧
    ((nx (exec (.fryTrainingStart 120 0x12) sF1)).group 1).phase = .down := by decide +kernel
theorem test_trainingPhaseComplete : ((nx (exec (.trainingPhaseComplete 120 1) sF1)).group 1).phase = .train 2 ∧
    sentOf (nx (exec (.trainingPhaseComplete 120 1) (gF (.train 3) 115))) = [(1, 1)] := by decide +kernel
theorem test_trainingPhaseTimeout : ((nx (exec (.trainingPhaseTimeout 3000000 1) (gF (.train 3) 115))).group 1).phase = .train 1 ∧
    ((nx (exec (.trainingPhaseTimeout 2400000 1) (gF (.train 3) 115))).group 1).phase = .train 3 := by decide +kernel
theorem test_ferryLinkPacket : (sUpF.group 1).phase = .up ∧ (sUpF.group 1).peer = 9 ∧
    (nx (exec (.ferryLinkPacket 120 1 (pk 1) ⟨9, 1⟩ 20 (some 5)) sUpF)).unitFenced 6 5 = true := by decide +kernel
theorem test_offer : (nx (exec (offI (pk 1)) sUpF)).fry.offers = [{ offA with stamp := 120 }] ∧
    (nx (exec (offI (pk 1 false)) sUpF)).fry.offers = [] := by decide +kernel
theorem test_state : (nx (exec (.state 120 1 (pk 1) 5 [7, 8]) sOf)).fry.offers.map Offer.got = [[7, 8]] := by decide +kernel
theorem test_stateEnd : (nx (exec (.stateEnd 120 1 (pk 1) 5 0x77) sOf)).fry.offers.map Offer.done = [true] := by decide +kernel
theorem test_ack : ((nx (exec (.ack 120 1 (pk 1) 5) sSd)).man.entries.map fun p => p.2.req.mig.map MigOut.acked) = [some true] := by decide +kernel
theorem test_nak : answerOf (nx (exec (.nak 120 1 (pk 1) 5 1 2 3) sSd)) = some (0x0C, 0) ∧
    sentOf (nx (exec (.nak 120 1 (pk 1) 5 0 2 3) sRs)) = [(1, 3), (1, 4)] := by decide +kernel
theorem test_mirror : (nx (exec (.mirror 120 1 (pk 1) 0 0x40 [1, 2, 3]) sMir)).rd 0x1040 3 = [1, 2, 3] ∧
    (nx (exec (.mirror 120 1 (pk 1) 0x4000 0x40 [1, 2, 3]) sMir)).mem.viol = sMir.mem.viol + 1 := by decide +kernel
theorem test_beat : ((nx (exec (.beat 120 1 (pk 1)) sUpF)).group 1).link = (sUpF.group 1).link + 3 := by decide +kernel
theorem test_beatSend : sentOf (nx (exec (.beatSend 30000 1) sUpF)) = sentOf sUpF ++ [(1, 8)] ∧ sentOf (nx (exec (.beatSend 130 1) sUpF)) = sentOf sUpF := by
  decide +kernel
theorem test_peerLost : ((nx (exec (.peerLost 2400119 1) sUpF)).group 1).lost = true ∧ ((nx (exec (.peerLost 2400118 1) sUpF)).group 1).lost = false := by
  decide +kernel
theorem test_offerTimeout : (nx (exec (.offerTimeout 9000000000 1 5) sOf)).fry.offers = [] ∧ (nx (exec (.offerTimeout 120 1 5) sOf)).fry.offers = [offA] := by
  decide +kernel
theorem test_xferTimeout : answerOf (nx (exec (.xferTimeout 48100 3) sSd)) = some (0x0D, 0) ∧
    answerOf (nx (exec (.xferTimeout 48099 3) sSd)) = none := by decide +kernel

theorem wit_FerryTrains : (u0 sA).alive = true ∧ (u0 sA).portFree = true ∧ (u0 sF1).portFree = true ∧ (u0 sA).clk.talign = true ∧ (u0 sA).clk.fatal = false ∧ (u0 sA).fry.en = false ∧
    (u0 sF1).fry.en = true ∧ (u0 sF1).alive = true ∧ bitAt (0x13 : Word) 0 = true ∧ bitAt (0x12 : Word) 0 = false ∧ (uk 13 sF1).running = true ∧
    ((uk 13 sF1).group 1).phase = .train 1 ∧ ((uk 13 sF1).group 1).since = 110 ∧ 2400110 ≤ (sF1.upTo 3000000 (kSub 13)).tally ∧
    ((sF1.upTo 3000000 (kSub 13)).group 1).phase = .train 1 ∧ ((uk 13 (gF (.train 3) 115)).group 1).phase = .train 3 := by decide +kernel
theorem wit_FerryTrains_link : (u0 (gF (.train 4) 115)).running = true ∧ (u0 (gF (.train 4) 115)).fry.en = true ∧
    (u0 (gF (.train 4) 115)).inOrder 1 (pk 0) ∧ (u0 (gF (.train 4) 115)).calm 1 ∧ (u0 sUpF).calm 1 ∧ ((u0 (gF (.train 4) 115)).group 1).phase = .train 4 ∧ (u0 sUpF).inOrder 1 (pk 1) ∧
    ((u0 sUpF).group 1).phase = .up ∧ 5 / (8 >>> (u0 sUpF).fry.groups) = 1 ∧
    (u0 sUpF).unitFenced 6 5 = false ∧ (u0 sUpF).fry.spareUsed = false ∧ (u0 sUpF).unitFenced 6 8 = false := by
  unfold State.inOrder State.calm; decide +kernel
theorem wit_FerryTransfers_packets : (u0 sUpF).running = true ∧ (u0 sUpF).fry.en = true ∧ (u0 sUpF).calm 1 ∧
    ((u0 sUpF).group 1).link = 20 ∧ (pk 1 false).good = false ∧ 32768 ≤ ((pk 0).seq.toNat + 65536 - ((u0 sUpF).group 1).rxSeq) % 65536 ∧
    (u0 sUpF).fry.offers = [] ∧ (u0 sUpF).waiting.length < 64 ∧ (u0 sOf).fry.offers = [offA] ∧ (u0 sOf).waiterOf offA = none ∧
    ((u0 sOf).group 1).phase = .up ∧ (u0 sOf).inOrder 1 (pk 1) := by unfold State.inOrder State.calm; decide +kernel
theorem wit_FerryTransfers_waits : (u0 sWt).calm 1 ∧ (u0 sWt).mem.en = true ∧ (u0 sWt).tally < offA.stamp + 2400 * (u0 sWt).man.migto ∧
    (u0 sSd).calm 1 ∧ ((u0 sSd).entry 3).req.build = none ∧ (u0 sRs).calm 1 ∧ (u0 sWt).fry.offers = [{ offA with got := [1, 2, 3] }] ∧ (u0 sWt).waiterOf { offA with got := [1, 2, 3] } = some 4 ∧
    ((u0 sWt).entry 4).req.build.map (fun b => b.h) = some 2 ∧ (u0 sWt).inOrder 1 (pk 1) ∧ ((u0 sWt).group 1).phase = .up ∧
    (u0 sSd).sender 1 5 = some (3, migF) ∧ (u0 sSd).OpenIs 4 (opA 0x13) ∧ (u0 sSd).inOrder 1 (pk 1) ∧ ((u0 sSd).group 1).phase = .up ∧
    (u0 sRs).fry.sent = [] ∧ (u0 sRs).inOrder 1 (pk 1) ∧ ((u0 sRs).group 1).backlog = [] ∧ ((u0 sRs).group 1).retry.length = 3 := by
  unfold State.inOrder State.calm State.OpenIs; decide +kernel
theorem wit_FerryTransfers_mirror : (u0 sMir).calm 1 ∧ (u0 sMir).mem.en = true ∧ (u0 sMir).running = true ∧ (u0 sMir).fry.en = true ∧ (u0 sMir).ownedWr 0 (0x1000 + 0 * 65536 + 0x40) 3 = true ∧ (u0 sMir).MemSound ∧
    (u0 sMir).ownedWr 0 (0x1000 + 0x4000 * 65536 + 0x40) 3 = false ∧ (u0 sMir).inOrder 1 (pk 1) ∧ ((u0 sMir).group 1).phase = .up := by
  unfold State.inOrder State.calm State.MemSound; decide +kernel
theorem wit_FerryTransfers_timers : (sUpF.upTo 30000 (kSub 13)).running = true ∧ ((sUpF.upTo 30000 (kSub 13)).group 1).beatAt + 24000 ≤ 30000 ∧
    ((sUpF.upTo 30000 (kSub 13)).group 1).phase = .up ∧ ((sUpF.upTo 30000 (kSub 13)).group 1).lastGood = some 119 ∧ (sUpF.upTo 30000 (kSub 13)).fry.en = true ∧
    ((sUpF.upTo 2400119 (kSub 13)).group 1).lastGood = some 119 ∧ (uk 13 sOf).waiting = [offA] ∧ (sOf.upTo 9000000000 (kSub 13)).waiting = [offA] ∧
    offA.stamp + 2400 * (uk 13 sOf).man.migto ≤ 9000000000 ∧ (uk 13 sOf).tally < offA.stamp + 2400 * (uk 13 sOf).man.migto ∧
    ((uk 13 sSd).entry 3).state = .migOut ∧ ((uk 13 sSd).entry 3).req.mig = some migF ∧ (uk 13 sSd).OpenIs 4 (opA 0x13) ∧
    (sSd.upTo 48100 (kSub 13)).tally = migF.offer + 4800 * migF.limit := by unfold State.OpenIs; decide +kernel

/-! ### Clocks, resets, test access -/

def sOff1 : State := nx (exec (.powerDown 110) sJ)
def sPin : State := nx (exec (.pinReset 110) sJ)
def sUp1 : State := nx (exec (.powerUp 110) sOff1)
def sAbs : State := nx (exec (.absent 110 true) sJ)
def sArr : State := nx (exec (.arrayReset 110) sJ)
def sSoft : State := nx (exec (.softReset 110 0x1A5) sJ)
def sBist : State := nx (exec (.softResetEnd 117) (nx (exec (.pgArrayRise 115) sArr)))
def bist (lanes : BitVec 9) (others : BitVec 8) : Instr := .bistDone 120 lanes 0x1 0x20 0x10 0x1 0x3 others

theorem test_powerDown : sOff1.clk.pgLogic = false ∧ sOff1.man.entries = [] ∧ sOff1.mem.bytes = sJ.mem.bytes := by decide +kernel
theorem test_powerUp : sUp1.clk.phase = .reset ∧ sUp1.tally = 0 ∧ sUp1.alive = false := by decide +kernel
theorem test_absent : sAbs.alive = false ∧ (nx (exec (.absent 120 false) sAbs)).clk.absent = false := by decide +kernel
theorem test_pinReset : sPin.clk.phase = .reset ∧ sPin.clk.kind = min sJ.clk.kind 3 ∧ sPin.tally = 0 := by decide +kernel
theorem test_rstNRelease : (nx (exec (.rstNRelease 5 9) sPin)).clk.phase = .bist ∧ (nx (exec (.rstNRelease 5 9) sPin)).clk.blkNum = 9 := by decide +kernel
/-- RST_N fell while the block had no supply. -/
def sUpLow : State := nx (exec (.powerUp 112) (nx (exec (.pinReset 111) sOff1)))
theorem test_pllLock : (nx (exec (.pllLock 5) (nx (exec (.rstNRelease 1 9) sUpLow)))).clk.phase = .bist ∧ (nx (exec (.pllLock 5) sUpLow)).clk.phase = .reset ∧
    (nx (exec (.pllLock 5) sUp1)).clk.phase = .bist := by decide +kernel
theorem test_pllLockLoss : (nx (exec (.pllLockLoss 120) sJ)).clk.phase = .failing ∧ (nx (exec (.pllLockLoss 5) sPin)).clk.lock = false := by decide +kernel
theorem test_gtStrobe : (nx (exec (.gtStrobe 120 25) sJ)).clk.badStb = sJ.clk.badStb + 1 ∧ (nx (exec (.gtStrobe 120 240) sJ)).clk.gterr = true ∧
    (nx (exec (.gtStrobe 120 120) sJ)).clk.gterr = false ∧ (nx (exec (.gtStrobe 5 240) sPin)).tally = 240 := by decide +kernel
/-- WX_EXTEST with the cell of IRQ at 1, and its register after a capture and two shifts. -/
def wEx : WrapperUpdate := ⟨false, [.capture [true, false, true], .shift false, .shift true], .extest, [(.irq, 1)], [(.cnAddr, 0x15)], true⟩
theorem test_wrapper : (nx (exec (.wrapperInstructionUpdate 120 ⟨false, [], .bypass, [], [], false⟩) sJ)).alive = true ∧
    (nx (exec (.wrapperInstructionUpdate 120 wEx) sJ)).alive = false ∧ (nx (exec (.wrapperInstructionUpdate 120 wEx) sJ)).wso = true ∧
    (nx (exec (.wrapperInstructionUpdate 120 wEx) sJ)).clk.wser = [true, false, true] ∧
    (nx (exec (.wrapperInstructionUpdate 121 { wEx with wrstnLow := true }) (nx (exec (.wrapperInstructionUpdate 120 wEx) sJ)))).alive = true := by
  decide +kernel
/-- WX_MBIST starts the array test; its findings change no fence. -/
theorem test_mbist : let s := nx (exec (.wrapperInstructionUpdate 120 { wEx with ins := .mbist }) sJ);
    s.clk.mbist = true ∧ (nx (exec (.bistDone 130 1 0 0 0 0 0 0) s)).clk.mbistBad = 1 ∧ (nx (exec (.bistDone 130 1 0 0 0 0 0 0) s)).unitFenced 0 0 = false := by
  decide +kernel
theorem test_bsMode : (nx (exec (.bsMode 120 ⟨true, [.capture 0x801, .shift true, .update]⟩) sJ)).clk.bsMode = true ∧
    (nx (exec (.bsMode 120 ⟨true, [.capture 0x801, .shift true, .update]⟩) sJ)).nvmPins = .cells 0xC00 ∧
    (nx (exec (.bsMode 120 ⟨true, [.capture 0x801]⟩) sJ)).bsSo false = true := by decide +kernel
theorem test_softReset : sSoft.clk.phase = .softLog ∧ sSoft.man.entries = [] ∧ (nx (exec (.softReset 120 0x1A4) sJ)).clk.phase = .service := by decide +kernel
theorem test_arrayReset : sArr.clk.phase = .arrayReset ∧ sArr.pil.slots = [] ∧ (sArr.region 0).v = false ∧ (sArr.region 1).gen = (sJ.region 1).gen ∧ sArr.tally = 110 := by decide +kernel
theorem test_arrayReset_bist : (nx (exec (.arrayReset 6) (nx (exec (.rstNRelease 5 9) sPin)))).clk.phase = .arrayReset ∧
    (nx (exec (.arrayReset 6) sPin)).clk.phase = .reset ∧ (nx (exec (.arrayReset 6) sPin)).clk.pgArray = false := by decide +kernel
theorem test_pgArrayRise : (nx (exec (.pgArrayRise 120) sArr)).clk.phase = .softLog ∧ (nx (exec (.pgArrayRise 120) sArr)).clk.bistAfter = true := by decide +kernel
theorem test_softResetEnd : sBist.clk.phase = .bist ∧ (nx (exec (.softResetEnd 120) sSoft)).clk.phase = .service ∧ sBist.tally = 117 := by decide +kernel
theorem test_bistDone : (nx (exec (bist 0x004 0) sBist)).unitFenced 0 2 = true ∧ (nx (exec (bist 0x004 0) sBist)).tok.spareFor = 2 ∧
    (nx (exec (bist 0x004 0) sBist)).clk.phase = .service ∧ (nx (exec (bist 0 5) sBist)).clk.fatal = true := by decide +kernel
theorem wit_ResetsAndClocks : (u0 sOff1).clk.pgLogic = false ∧ (u0 sJ).clk.pgLogic = true ∧ (u0 sJ).clk.absent = false ∧ (u0 sAbs).clk.absent = true ∧
    (u0 sJ).clk.rstN = true ∧ (u0 sPin).clk.absent = false ∧ (u0 sPin).clk.pgLogic = true ∧ (u0 sPin).clk.rstN = false ∧
    (u0 sUp1).clk.lock = false ∧ (u0 sUp1).clk.pgLogic = true ∧ (u0 sJ).clk.lock = true ∧ (u0 sJ).running = true ∧ (u0 sPin).clk.lock = true ∧
    (u0 sPin).running = false ∧ (u0 sPin).clk.talign = false ∧ (u0 sJ).clk.talign = true ∧ (u0 sJ).tally = 120 ∧ (u0 sJ).alive = true ∧
    (u0 sJ).portFree = true ∧ bitAt (0x1A5 : Word) 8 = true ∧ fld (0x1A5 : Word) 0 8 = 0xA5 ∧ bitAt (0x1A4 : Word) 8 = true := by decide +kernel
theorem wit_ResetsAndClocks_ends : (uk 14 sJ).powered = true ∧ (uk 14 sJ).clk.phase = .service ∧ (uk 14 sPin).clk.pgArray = true ∧ (uk 14 sPin).clk.rstN = false ∧
    (uk 14 sPin).powered = true ∧ (uk 14 sJ).clk.pgArray = true ∧ (uk 14 sJ).clk.rstN = true ∧ (uk 14 sArr).clk.pgArray = false ∧
    (uk 14 sArr).clk.phase = .arrayReset ∧ (uk 14 sSoft).clk.phase = .softLog ∧ (uk 14 sSoft).softWritten = true ∧ (uk 14 sBist).clk.phase = .bist ∧
    (uk 14 sBist).clk.lock = true ∧ (uk 14 sBist).clk.absent = false ∧ (uk 14 sBist).clk.pgLogic = true ∧
    (let s : State := { sSoft with log := lgA, wch := { sSoft.wch with staging := [rc 1] } }; (uk 14 s).clk.phase = .softLog ∧ (uk 14 s).softWritten = false) ∧
    (let s : State := { sJ with clk := { sJ.clk with pgArray := false } }; (uk 14 s).clk.pgArray = false ∧ (uk 14 s).clk.phase = .service) := by decide +kernel
/-- The one lane, tile, engine and core that BIST found. -/
theorem wit_ResetsAndClocks_bist : onlyBad (bitAt (0x004 : BitVec 9)) 9 2 ∧ onlyBad (bitAt (0x20 : BitVec 34)) 34 5 ∧ onlyBad (bitAt (0x10 : BitVec 9)) 9 4 ∧
    onlyBad (bitAt (0x1 : BitVec 18)) 18 0 := by unfold onlyBad; decide +kernel

/-! ### Registers and counters -/

def rw (off : Nat) (w : Word) (s : State := sJ) : State := nx (exec (.regWrite 120 (BitVec.ofNat 17 (off / 8)) w) s)
def sBk : State := sJ.setTtc 1 (ttC true)
def sUn : State := { sJ with clk := { sJ.clk with talign := false } }
def cntA (v e : Nat) (ch en : Bool) : Counter := ⟨v, false, e, ch, en⟩
/-- Bank 2 counts event 2 in counter 0, chained to counter 1, and event 0x10 in counter 5; bank 3 is frozen. -/
def sCt : State :=
  let cs := [cntA 0xFFFFFFFE 2 true true, cntA 4 0 false false, cntA 0 2 false false, cntA 0 2 false false,
    cntA 0 2 false false, cntA 0xFFFFFFFF 0x10 false true] ++ List.replicate 10 (cntA 0 0 false false)
  { sA with cnt := { sA.cnt with banks := [cs, cs, cs, cs], now := [(2, 2, 5), (2, 0x10, 7), (3, 2, 1), (2, 2, 1)], freeze := 8 } }

theorem test_regWrite : (rw 0x4028 0xABCD).readReg 0x4028 = some 0xBCD ∧ (rw 0x20530 77).domOf 5 = { sJ.domOf 5 with quota := 77 } ∧
    (rw 0x4020 0).readReg 0x4020 = sJ.readReg 0x4020 := by decide +kernel
theorem test_badRegAccess : (nx (exec (.badRegAccess 120 false (BitVec.ofNat 17 (0x50 / 8)) 0) sJ)).wch.badreg = sJ.wch.badreg + 1 ∧
    (nx (exec (.badRegAccess 120 false 0 0) sJ)).pins.cnData.map (fun p => p.2) = [0x00007C1100B00502] := by decide +kernel
theorem test_peakClr : (nx (exec (.peakClr 120 7) sJ)).ramp.peak = sJ.holdUse ∧ (nx (exec (.peakClr 120 6) sJ)).ramp.en = false := by decide +kernel
theorem test_manData0Read : ((nx (exec (.manData0Read 120) { sJ with man := { sJ.man with sel := 3 } })).pins.cnData.map fun p => fld p.2 4 8) = [5] := by
  decide +kernel
theorem test_counters : ((sCt.setTally 130).cnt.banks.map fun b => (b.map Counter.value).take 6) =
    [[0xFFFFFFFE, 4, 0, 0, 0, 0xFFFFFFFF], [0xFFFFFFFE, 4, 0, 0, 0, 0xFFFFFFFF], [4, 5, 0, 0, 0, 6], [0xFFFFFFFE, 4, 0, 0, 0, 0xFFFFFFFF]] ∧
    ((sCt.setTally 130).cnt.banks.map fun b => (b.map Counter.ovf).take 6)[2]? = some [false, false, false, false, false, true] := by decide +kernel
/-- A job overruns and a trigger waits while the tally goes from 100 to 131: 31 GCLK edges, 16 MCLK edges. -/
def sCe : State :=
  { sA with dsp := { sA.dsp with startQ := [trA] }, pil := { sA.pil with slots := [(2, { slotA with job := some { jobA with lateAt := some 90 } })] } }
theorem test_counters_edges : ((sCe.setTally 131).counter 3 4).value = (sCe.counter 3 4).value + (131 - sCe.tally) ∧
    ((sCe.setTally 131).counter 4 9).value = (sCe.counter 4 9).value + (132 / 2 - (sCe.tally + 1) / 2) ∧ sCe.tally < 120 ∧
    ((sA.setTally 131).counter 3 4).value = (sA.counter 3 4).value ∧ sCe.eventsTo 131 3 0x13 = 131 - sCe.tally := by decide +kernel
theorem wit_CountersTakeEvents : sCt.tally < 130 ∧ 90 ≤ sCt.tally ∧ sCt.cnt.banks.map List.length = [16, 16, 16, 16] ∧ bitAt sCt.cnt.freeze 3 = true ∧
    bitAt sCt.cnt.freeze 2 = false ∧ (sCt.cnt.banks[2]?.bind fun b => b[0]?) = some (cntA 0xFFFFFFFE 2 true true) ∧
    sCt.eventsTo 130 2 2 = 6 := by decide +kernel
theorem wit_RegistersReadAndWrite : (u0 sJ).alive = true ∧ (u0 sJ).clk.talign = true ∧ (u0 sJ).clk.fatal = false ∧ (u0 sUn).clk.talign = false ∧
    (u0 sUn).alive = true ∧ (u0 sJ).portFree = true ∧ (u0 sUn).portFree = true ∧ (u0 (nx (exec (.regWrite 120 0 0) sJ))).portFree = false ∧
    (u0 (nx (exec (.regWrite 120 0 0) sJ))).alive = true ∧ (plainReg (u0 sJ) 0x4028 0xABCD).map (fun x => x.1) = some 0xBCD ∧ (0x2000, 1) ∉ readOnlyRegs ∧ (0x2008, 1) ∈ readOnlyRegs ∧
    (enableReg (u0 sUn) 0x9000 3).map (fun x => x.1) = some 3 ∧ (u0 sUn).tre.en = true ∧ (u0 sUn).fry.en = false ∧
    0x20530 = 0x20030 + 0x100 * 5 ∧ 65536 < fld (0x10001 : Word) 0 17 ∧ 0x11008 = 0x10000 + 0x1000 * 1 + 0 + 8 * 1 ∧
    (u0 sBk).ttc 1 = ttC true ∧ (ttC true).active = false ∧ (ttC true).av = true := by decide +kernel
/-- An enable whose rise is refused while the tally is not aligned, and one that may rise. -/
theorem wit_RegistersReadAndWrite_rise : (let s : State := { sUn with cls := { sUn.cls with en := false } };
      (enableReg (u0 s) 0x8000 1).isSome = true ∧ (u0 s).cls.en = false ∧ bitAt (1 : Word) 0 = true ∧ (u0 s).clk.talign = false ∧
        (rw 0x8000 1 s).cls.en = false) ∧
    (let s : State := { sJ with cls := { sJ.cls with en := false } }; (u0 s).cls.en = false ∧ (rw 0x8000 1 s).cls.en = true) := by decide +kernel

/-! ### The boundary -/

theorem wit_BoundaryDriven : (u0 sJ).clk.absent = false ∧ (u0 sJ).clk.pgLogic = true ∧ (u0 sJ).clk.rstN = true ∧ (u0 sJ).clk.phase = .service ∧
    (u0 sJ).clk.wrapper = .bypass ∧ (u0 sUp1).clk.lock = false ∧ (u0 sUp1).clk.pgLogic = true ∧ WrapperIns.extest ≠ .bypass ∧
    ([(OutSig.irq, 1)].find? fun c => decide (c.1 = OutSig.irq)) = some (.irq, 1) ∧ (u0 sJ).alive = true ∧ (u0 sJ).portFree = true ∧
    drivenAt 124 (Tab.getD (u0 sJ).pins.maskRsp 3 []) = none := by decide +kernel
theorem wit_BoundaryDriven_port : (let u := u0 (sPt (rq false 0x100));
      u.alive = true ∧ u.clk.rstN = true ∧ (u.port 2).waitq = [rq false 0x100, rq false 0x300] ∧ u.mem.en = true ∧ (u.port 2).out.length < 256 ∧
        u.reqOk (rq false 0x100) = true ∧ (u.port 2).shown = none) ∧
    (let u := (inQ [] sA).takePort.upTo 120 0; u.alive = true ∧ u.tally % 3 = 0 ∧ u.pins.cnData = []) ∧
    (u0 { sA with lnd := { sA.lnd with busyAt := some 120 } }).portFree = false := by decide +kernel
theorem wit_BoundaryDriven_write : (let u := u0 sJ; (u.writeReg 0x4028 0xABC).clk = u.clk) := by decide +kernel
theorem test_boundary : (nx (exec (.powerDown 120) sJ)).out 120 (.moValid 0) = 0 ∧
    (nx (exec (.maskRead 120 3 5 2 0) sM)).out 124 (.mrsValid 3) = 1 ∧ (nx (exec (.maskRead 120 3 5 2 0) sM)).out 125 (.mrsData 3) = 0 ∧
    (nx (exec (.wrapperInstructionUpdate 120 wEx) sJ)).out 120 .irq = 1 ∧
    (nx (exec (.wrapperInstructionUpdate 120 wEx) sJ)).inCell .cnAddr = 0x15 := by decide +kernel

/-! ### Flushes, the LOG_ARM window and the queue -/

theorem test_lndFlush : (nx (exec (.lndFlushCq 120 1) sQ)).lnd.cq.length = 2 ∧ (nx (exec (.lndFlushNq 120 2) sQ)).lnd.nq = [] := by decide +kernel
theorem test_logArm : (nx (exec (.logArm 120) (cm 0x35 0 []))).lnd.armAt = 120 ∧ (nx (exec (.logArm 120) (cm 0x35 5 []))).lnd.nonce = none ∧
    answerOf (nx (exec (.logArm 120) (cm 0x35 5 []))) = some (18, 0) := by decide +kernel
theorem test_logArmWindowEnd : (nx (exec (.logArmWindowEnd 2400000100) sArm)).lnd.nonce = none ∧
    (nx (exec (.logArmWindowEnd 2400000099) sArm)).lnd.nonce = some 6 := by decide +kernel
/-- A step takes the command in front, and with none leaves the state. -/
theorem test_step : (nx (step { sJ with pending := [.tokSwap 120 (go 2), .bsMode 120 ⟨true, []⟩] })).pending = [.bsMode 120 ⟨true, []⟩] ∧
    step State.reset = .next State.reset ∧ (step sA = .next sA) := by
  refine ⟨by decide +kernel, rfl, rfl⟩

/-! ### More forms of the statements -/

/-- One job, in slot 0, which has issued nothing since the last edge. -/
theorem wit_CountersTakeEvents_idle : let s : State := { sJ with pil := { sJ.pil with slots := [(0, slotA)] } };
    s.job (4 * 0) = some jobA ∧ (s.pil.slots.map fun p => p.1) = [0] ∧ Tab.get s.cnt.issued 0 = none ∧ s.tally < 130 := by decide +kernel
/-- No line is displaced by an access, and none that may not be written back. -/
theorem wit_LoadsWriteGd_line : (u1 sJ).winLost jobA 0x10040 = none ∧ (u1 sJ).winWaits jobA 0x10040 = false ∧
    (u1 sJ).winTrip jobA 0x10040 false = false ∧ (u1 sJ).unordered 2 0x110040 = [] ∧ (u1 sJ).scVictim (0x110040 / 64) 5 1 = none := by
  decide +kernel
/-- A slot began at 0 in an overrun: a FENCE of 105 waits, and a NOTE of 110 behind it. -/
def sRisk : State :=
  { withJob { jobA with lateAt := some 0 } with
    tt := (sJ.setTtc 0 ttB).tt
    lnd := { sJ.lnd with wait := [⟨105, .fence 9⟩, ⟨110, .notice 110 [[0x8C, 110, 0x10003, 0, 0, 0, 0, 0]]⟩] } }
theorem wit_MapReadFencePostSkip_notes : ((u1 sJ).entry (hIdx jobA.handle)).req.build.isNone = true ∧ (u1 sJ).noteWaits hA = false ∧
    (u1 sRisk).noteWaits hA = true ∧ (u1 sRisk).atRisk = [0] ∧
    (u1 sRisk).Issues 2 { jobA with lateAt := some 0 } 0 (guardA 0) [] [] := by unfold State.Issues; decide +kernel

/-- The verdict task of the answer graph of chunk 0 ends in slot 2: its chunk, its verdict word. -/
def sVd (c : Chunk) (w : Word) : State := withInst { instA with vtask := 1, verdict := some w } (withC [c] sJ)
/-- The same of a prompt graph. -/
def sVp (w : Word) : State := withInst { instA with vtask := 1, verdict := some w, answer := false } (setE ePr sJ)
theorem wit_TrapAndEndLeaveSlot_verdict : ∀ w : Word, w ∈ [0x0#64, 0x2#64, 0xA#64, 0x5#64, 0x1005#64] → let u := u1 (sVd chA w);
      u.Issues 2 jobA 0 (guardA 0) [] [] ∧ (u.inst 7).map (fun g => (g.verdict, g.vtask, g.parent.isNone, g.screen, g.answer, g.k)) =
          some (some w, 1, true, false, true, 0) ∧ (actOf (fld w 0 3)).isSome = true ∧
        u.live hA = some 3 ∧ u.rampEn = true ∧ u.chunk 3 0 = some chA ∧ u.rampTakes 3 = true := by
  intro w hw
  simp only [List.mem_cons, List.not_mem_nil, or_false] at hw
  rcases hw with rfl | rfl | rfl | rfl | rfl <;> (unfold State.Issues; decide +kernel)
theorem wit_TrapAndEndLeaveSlot_still : let u := u1 (sVd chA 5);
    u.tok.path = [] ∧ u.ramp.due = [] ∧ u.lnd.wait = [] ∧ (u.entry 3).req.chunks = [chA] ∧ (u.entry 3).req.openChunk = some chA ∧
      u.tally < chA.f + 2400 * chA.set.deadline ∧ u.tally < chA.f + 240 * chA.set.close + 10 ∧ u.roomFor 1 ∧ chA.toks.length = 1 := by
  unfold State.roomFor; decide +kernel
/-- A chunk whose verdict missed, one that has its verdict; the prompt's verdict task. -/
theorem wit_TrapAndEndLeaveSlot_late : ((u1 (sVd { chJ with missed := true } 5)).chunk 3 0).map (fun c => (c.missed, c.verdict)) = some (true, none) ∧
    ((u1 (sVd { chJ with verdict := some 110 } 5)).chunk 3 0).map Chunk.verdict = some (some 110) := by decide +kernel
theorem wit_TrapAndEndLeaveSlot_prompt : (u1 (sVp 0)).Issues 2 jobA 0 (guardA 0) [] [] ∧ (u1 (sVp 5)).Issues 2 jobA 0 (guardA 0) [] [] ∧
    ((u1 (sVp 5)).inst 7).map (fun g => (g.verdict, g.vtask, g.answer)) = some (some 5, 1, false) := by
  unfold State.Issues; decide +kernel
theorem wit_TrapAndEndLeaveSlot_window : let e := (u1 (sVp 5)).entry 3;
    e.req.pwin = true ∧ 120 < e.pstamp + 2400 * e.pdl ∧ e.req.oversize = false ∧ e.req.stop.isNone = true ∧ e.req.ended = false ∧
      e.state = .prompt := by decide +kernel
/-- What those verdicts do. -/
theorem test_verdict_delivered : ((nx (exec (.endJob 120 2 0 0) (sVd chA 0xA))).entry 3).req.chunks.map (fun c => (c.verdict, c.esc, c.toks.map Held.act)) =
      [(some 120, true, [.flag])] ∧ ((nx (exec (.endJob 120 2 0 0) (sVd chA 5))).entry 3).state = .stopped ∧
    ((nx (exec (.endJob 120 2 0 0) (sVp 0))).entry 3).state = .answer ∧
    ((nx (exec (.endJob 120 2 0 0) (sVp 5))).entry 3).outcome = 6 := by decide +kernel
/-- A line that is displaced is none; the functions 4 to 6 of CMP. -/
theorem wit_AddressAndPoisonFaults_more : (u1 sJ).winLost jobA 0x10040 = none ∧ (u1 (sJ.wr 0x110001 [2])).winLost jobA 0x10040 = none ∧
    (∀ n : Fin 7, let f := fA 0 6 7 3 0 0 n;
      (u1 sJ).Issues 2 jobA f (guardA f) [fGA f, fGB f] [fGD f] ∧ gbOk f = true ∧ (jobA.reg (fGA f)).pois = true ∧ fFN f < 7 ∧ fGD f < 8) := by
  unfold State.Issues; decide +kernel

/-- Fields of a descriptor hold what they take. -/
theorem wit_TokenAdvancesAutomata_fits : (u0 sA).DescFits epA := by
  refine ⟨by decide, fun n => ?_⟩
  have h : (u0 sA).tok.masks = [] := rfl
  simp [State.mask, h, Tab.get]
  decide

/-- The transfer of sTok with another stamp, stage and token, in front of other chunks. -/
def sStage (stage stamp tok : Nat) (act : Act) (cs : List Chunk) : State :=
  let s := setE { sTok.entry 3 with aseq := 1, req := { (sTok.entry 3).req with chunks := cs } } sTok
  { s with tally := stamp + 5, tok := { s.tok with path := s.tok.path.map fun f =>
      { f with stage := stage, stamp := stamp, path := f.path.map fun p => { p with tok := tok, v := { p.v with act := act } } } } }
def c100 : Chunk := { chA with f := 100 }
def stageOk (s : State) (stage : Nat) : Bool :=
  s.running && s.ramp.due.isEmpty && s.lnd.wait.isEmpty && decide (s.live hA = some 3) && s.rampTakes 3 && match s.tok.path with
    | [f] => decide (f.stage = stage) && decide (f.path.length = 1) && f.passed && !f.fault && !f.replay && decide (f.handle = hA) &&
        decide (s.tally ≤ f.stamp + 7) && decide (f.kind = .token) && f.frame.isNone && f.own.isNone
    | _ => false
/-- T7 at 125 before an event of 126: FLAG, STOP and a pass-through chunk; T10 at 128 or 410 before one of 129 or 411. -/
theorem wit_PathStages_T7 : stageOk (sStage 7 118 17 .flag [c100]) 7 = true ∧ stageOk (sStage 7 118 17 .stop [c100]) 7 = true ∧
    (sStage 7 118 17 .flag [c100]).passes 3 118 = false ∧
    (sStage 7 118 17 .flag [{ c100 with set := { rampA with passthru := true } }]).passes 3 118 = true ∧
    ((sStage 7 118 17 .flag [c100]).setTally (118 + 7)).rampEn = true ∧
    (118 + 7 < 126 ∧ 126 < 118 + 10) := by decide +kernel
theorem wit_PathStages_T10 : (∀ k : Fin 4, let cs := if k = 0 then [] else if k = 3 then [{ c100 with toks := [], set := { rampA with chunk := 2 } }] else [c100];
      let s := sStage 10 (if k = 2 then 400 else 118) 17 .pass cs;
      stageOk s 10 = true ∧ (s.entry 3).req.mig.isNone = true ∧ (s.entry 3).aseq = 1 ∧ (s.entry 3).held < 2048 ∧ s.holdUse < 786432 ∧
        areaSize (areaPages (s.runs 0x120000 2) 2 0) = 0 ∧ (s.entry 3).req.openChunk.map Chunk.num = (if k = 0 then none else some 0) ∧
        (s.domOf 5).ramp = rampA) ∧
    (c100.f ≤ 118 ∧ 118 < c100.f + 240 * rampA.close ∧ c100.f + 240 * rampA.close ≤ 400 ∧ c100.count = 1 ∧ rampA.chunk = 4 ∧ epA.stopTok = 99) ∧
    stageOk (sStage 10 118 99 .pass [c100]) 10 = true ∧
    (let s := sStage 10 118 17 .pass [c100]; let s := setE { s.entry 3 with held := 2048 } s;
      stageOk s 10 = true ∧ (s.entry 3).req.build.isNone = true ∧ s.lnd.opens.length + s.lnd.nq.length + 2 ≤ 2047 ∧ s.atRisk = []) := by decide +kernel
/-- T7 raises the token before it, T10 appends its own. -/
theorem test_stages : (let s := nx (exec (.logArmWindowEnd 126) (sStage 7 118 17 .stop [c100])); (s.entry 3).req.stop = some ⟨1, 125⟩) ∧
    (((sStage 10 118 17 .pass [c100]).upTo 129 0).entry 3).req.chunks.map (fun c => c.toks.map Held.tok) = [[17, 17]] ∧
    (((sStage 10 118 99 .pass [c100]).upTo 129 0).entry 3).eoa = true ∧
    (((sStage 10 400 17 .pass [c100]).upTo 411 0).entry 3).req.chunks.map (fun c => (c.num, c.closed)) = [(0, some 350), (1, none)] := by decide +kernel

/-- A FENCE behind a slot that an overrun may still forfeit, and one with two notices that a build holds back, one of its own stamp. -/
def sHeld : State := cm 0x01 0 [] (sIn (eIn { bldA with held := [⟨0x82, 5, 110, [7]⟩, ⟨0x82, 5, 120, [8]⟩] } .migIn) 0x14)
theorem wit_CommandsAnswer_fence : (let s := cm 0x01 0 [] { sRisk with lnd := sA.lnd };
      headsOk s 0x01 0 [] ∧ (u0 s).atRisk = [0] ∧ 0 < (u0 s).tally ∧ (u0 s).man.entries.all (fun p => p.2.req.build.isNone) = true) ∧
    headsOk sHeld 0x01 0 [] ∧ (u0 sHeld).atRisk = [] ∧ ((u0 sHeld).entry 4).req.build.map (fun b => b.held.map HeldNote.stamp) = some [110, 120] := by
  decide +kernel
theorem test_fence_waits : (nx (exec (.fence 120) (cm 0x01 0 [] { sRisk with lnd := sA.lnd }))).lnd.wait.length = 1 ∧
    ((nx (exec (.fence 120) sHeld)).lnd.nq.map fun c => fld (wordOf c.words 0) 0 8) = [0x82, 0x01] := by decide +kernel
/-- The peer of block 0 is lost, and the mirror slot of entry 3, at 0x30000, holds a copy with COMMITTED 2. -/
def bldM : Build := { bldA with mirror := true, adopted := true, srcBlk := 9 }
def sMi : State :=
  let s := sIn (eIn bldM .migIn) 0x14
  (((s.wr 0x30004 [3, 0, 1, 0]).wr 0x30050 [5]).wr 0x30052 [7]).wr 0x30100 [2]
theorem wit_MigrationIn_mirror : let u := uk 2 sMi;
    u.running = true ∧ u.mem.en = true ∧ (u.entry 4).mmode = false ∧ ((u.entry 4).req.build.map fun b => (b.mirror, b.adopted, b.refused)) =
        some (true, true, false) ∧ ((u.ctlPage 4).map fun r => (r.page, u.ctlOk 4 r, u.flushOk 4 r)) = some (0x100000, true, true) ∧
      u.log.full = false ∧ u.log.failed = false ∧ u.wch.staging.length < 255 := by decide +kernel

/-- The mirror slot holds the copy of COMMITTED 2, or another one; a control page that came by the Ferry is read as one. -/
theorem wit_MigrationIn_mirror_copy : (uk 2 sMi).mirrorSlot hA 5 7 = some 0x30000 ∧ ((uk 2 sMi).readCopy 0x30100).committed = 2 ∧
    ((uk 2 (sMi.wr 0x30100 [3])).readCopy 0x30100).committed ≠ 2 ∧
    (let u := uk 2 (flushed (sIn { eIn { bldA with arrived := true } .migIn with mmode := true } 0x14));
      ∀ r, r ∈ (u.ctlPage 4).toList → u.flushOk 4 r = true) := by decide +kernel
/-- A missed window, and the release of a request that has stopped, leave no event of it behind. -/
theorem wit_ReleaseEmitsWords_stopped : let s := setE { entA with state := .stopped, held := 1, req := { entA.req with chunks := [chJ], stop := some ⟨1, 300⟩ } };
    let u := s.upTo 500 (kRamp 5);
    u.running = true ∧ (u.entry 3).req.chunks = [chJ] ∧ chJ.judged = some 400 ∧ max 400 (u.entry 3).lastrel ≤ u.tally ∧
      (u.entry 3).req.stop.map Stop.cause = some 1 ∧ (u.entry 3).req.ended = false ∧ u.ramp.due.length = 0 ∧ (u.entry 3).state = .stopped ∧
      u.epochOf (u.entry 3) = some epA ∧ ((withC [chStop]).upTo 240120 (kRamp 1)).ramp.due.length = 0 := by decide +kernel
/-- An epoch without a prompt graph: the verdict PASS is due at LAST. -/
def sNoP (s : State := sA) : State := { s with doms := [(0, Domain.init true), (5, { domA with ep0 := some { epA with pgraph := none } })] }
def wL : BitVec 576 := pinW 0x10003 false true [0x41]
theorem wit_PromptScreened_last : (let u := u0 (setE { ePr with req := { ePr.req with ptext := entA.req.ptext } } (sNoP));
      u.alive = true ∧ u.pinEn = true ∧ u.pinTaken = false ∧ u.live hA = some 3 ∧ (u.epochOf (u.entry 3)).map Epoch.pgraph = some none ∧
        (u.entry 3).state = .prompt ∧ wL.getLsbD 40 = true ∧ fld wL 0 32 = hA.toNat ∧ fld wL 33 7 = 1) ∧
    (let s : State := { sPr with ramp := { sPr.ramp with due := [⟨120, hA, .prompt⟩] } };
      s.running = true ∧ s.tok.path.length = 0 ∧ s.lnd.wait.length = 0 ∧ s.tally ≤ 120 ∧ (s.setTally 120).rampEn = true ∧ s.live hA = some 3 ∧
        (s.entry 3).state = .prompt ∧ (s.entry 3).req.pwin = true ∧ 120 < (s.entry 3).pstamp + 2400 * (s.entry 3).pdl ∧
        (s.entry 3).req.oversize = false ∧ (s.entry 3).req.stop.isNone = true ∧ (s.entry 3).req.ended = false ∧
        ((s.upTo 130 0).entry 3).state = .answer) := by decide +kernel
theorem wit_PromptScreened_closed : (∀ k : Fin 2, let r := if k = 0 then { ePr.req with pwin := false } else { ePr.req with stop := some ⟨1, 300⟩ };
      let u := (setE { ePr with state := .stopped, req := r }).upTo 240100 (kRamp 1);
      u.running = true ∧ u.rampEn = true ∧ 0 < (u.entry 3).pdl ∧ (u.entry 3).req.oversize = false ∧ u.tally = 240100 ∧
        ((u.entry 3).req.pwin = false ↔ k = 0) ∧ (u.entry 3).req.stop.isSome = decide (k = 1) ∧ (u.entry 3).req.build.isNone = true) := by
  decide +kernel
/-- A token-form transfer whose vocabulary bytes can be read. -/
theorem wit_PromptScreened_tokens : let w := pinW 0x10003 true false [17];
    (u0 sAd).tokenReads 5 ((u0 sAd).vslot 0).base 17 = true ∧ fld w 33 7 = 1 ∧ w.getLsbD 32 = true ∧ fld w 64 18 = 17 ∧ (u0 sAd).alive = true ∧
      (u0 sAd).pinEn = true ∧ (u0 sAd).pinTaken = false ∧ ((u0 sAd).domOf 5).formT = true := by decide +kernel

/-- The graph directory and the programs may be read, or the domain's region is another's. -/
def sDir (s : State) : State := { s with mem := { s.mem with rgns := [(0, ⟨true, true, true, 0, 0x10, 0, 1⟩), (1, ⟨true, false, true, 0x100000, 0x100, 6, 1⟩)] } }
theorem wit_GraphsStartAndResolve_reads :
    (∀ k : Fin 2, let u := (if k = 0 then sGr else sDir sGr).upToWhen 120 (kSub 4) (fun w => !w.dsp.startQ.isEmpty);
      u.running = true ∧ u.dsp.startQ.head? = some trA ∧ u.dspEn = true ∧ u.mem.en = true ∧ u.live hA = some 3 ∧ (u.entry 3).dom = 5 ∧
        u.epochOf (u.entry 3) = some epA ∧ u.graphReads 5 epA.gdir 0 = decide (k = 0)) ∧
    (∀ k : Fin 2, let u := uk 4 (if k = 0 then sRdy none else sDir (sRdy none));
      u.running = true ∧ u.dspEn = true ∧ u.mem.en = true ∧ u.nextJob u.tally = some ⟨7, 1, 80, none⟩ ∧ u.placeSlot u.tally = some 0 ∧
        u.inst 7 = some { instA with issued := 0 } ∧ u.progReads 5 0x300000 = decide (k = 0)) := by decide +kernel
/-- A switch between two banks, whose notice has room, where no overrun can end at the boundary. -/
theorem wit_BanksSwitch_av : let u := (sA.setTtc 1 { ttC true with sw := some 119 }).upTo 7680 (kSub 3);
    u.running = true ∧ (u.ttc 1).sw = some 119 ∧ (u.ttc 1).av = true ∧ u.roomFor 1 ∧ (∀ k : Fin 4, (u.ttc k).runlim = 0) := by
  unfold State.roomFor; decide +kernel
/-- A small model at 0x400000 of 32 elements, one class and no layer, whose first embedding scale word is skewed; token 0 at 0x80. -/
def clS : Call := { clA .classify (some (100, 3)) with w0 := 0x800004, w1 := 0 }
def sSkew : State :=
  let s := (sCl clS).setSlot 2 { (sCl clS).slot 2 with words := [wK 16 0] }
  mem8 0x400000 (32 * 2 ^ 6 + 2 ^ 54) <| mem8 0x400008 (1 + 2 ^ 13) <| mem8 0x400010 0x401000 <| mem8 0x401008 0x402000 <|
    mem8 0 1 <| s.wr 0x402000 [0, 0x10]
/-- A CLASSIFY call that delivers a skewed row, one that may not read its tensors, one with a poisoned input. -/
def co (o : CallOut) : Nat :=
  match o with
  | .skew _ _ _ _ => 1
  | .fault _ 9 => 9
  | .fault _ _ => 2
  | .done _ _ _ _ _ _ => 3
theorem wit_CallsRun_classify : co (sSkew.runCall 3 2 (jobCl clS) instA clS) = 1 ∧
    co ((mem8 0x400010 0x1000000000 sSkew).runCall 3 2 (jobCl clS) instA clS) = 9 ∧
    co ((sSkew.setSlot 2 { sSkew.slot 2 with words := [] }).runCall 3 2 (jobCl clS) instA clS) = 2 ∧
    (let u := sSkew.upTo 120 (kSub (sSkew.callSub 2 4));
      u.running = true ∧ u.mem.en = true ∧ u.rootInst 7 = some instA ∧ ((jobCl clS).calls.find? fun x => x.id = 4) = some clS) := by
  decide +kernel
/-- Calls that return BADARG: an area that leaves scratch, a CONT with nothing to continue. -/
theorem wit_CallsRun_badarg :
    (let c := { clS with out := 0xFFFE }; (sSkew.callSizes epB c).map c.fits = some false ∧ c.obj epB = some 0x400000) ∧
    (let c := { callA with fl0 := true, started := some (100, 3) }; instA.passOf 7 1 c = none ∧ c.op = .matchOp) := by decide +kernel
theorem wit_CallsRun_view_reads : (uk 7 (sVw false)).viewOk 3 vwA 0 = true ∧
    (uk 7 { sVw false with txt := { (sVw false).txt with viewBase := 0x100000 } }).viewOk 3 vwA 0 = false := by decide +kernel

/-- A port that has responded in this cycle, or in an earlier one; an ERR that an injection put on its next return. -/
def sResp (r : Option Stamp) (e : Bool) : State :=
  sJ.setPort 2 { waitq := [], out := [(7, rq false 0x100000 (.ldm 2 3 7))], nextTag := 8, shown := none, resp := r, errNext := e }
theorem wit_MemoryPortTransfers_edge : (let u := u0 (sResp (some 120) false);
      u.alive = true ∧ ((u.port 2).resp.map (edgeUp 2) = some (edgeUp 2 u.tally)) ∧ ((Tab.get (u.port 2).out 7).map fun q => q.write) = some false) ∧
    (let u := u0 (sResp (some 110) true); (u.port 2).resp.map (edgeUp 2) ≠ some (edgeUp 2 u.tally) ∧ (u.port 2).errNext = true) := by
  decide +kernel
theorem wit_MemoryPortTransfers_clean : let u := u0 sJ;
    (u.ctlPage 3).map (fun r => (r.role, r.owner)) = some (0, 5) ∧ (u.entry 3).dom = 5 ∧ u.mem.scLines.length = 0 := by decide +kernel
/-- A mount over slots of two records and a torn one, behind a checkpoint of slot 1024. -/
def sMt2 : State :=
  sL { sA.log with
    en := true, mounting := true, ckpts := [{ rc 39 with d0 := 1024, boot := 6 }]
    dev := [(1024, some (rc 40)), (1025, none), (1026, some (rc 41))] } [rc 1]
theorem test_logMounted_records : let v := nx (exec (.logMounted 120 true 0x8000000) sMt2);
    (v.log.head, v.log.boot, v.log.torn, v.log.nextSeq) = (1027, 7, 1, 44) ∧
      (v.wch.staging.map fun r => (r.seq, r.boot, r.typ)) = [(42, 7, 1), (43, 7, 13)] := by decide +kernel
theorem wit_LogbookWritesAndReads_mount : let u := uk 14 sMt2;
    u.nvmRuns = true ∧ u.log.mounting = true ∧ u.log.full = false ∧ u.log.failed = false ∧ u.wch.staging.length = 1 ∧
      ((u.log.ckpts.getLast?).map fun c => c.d0.toNat) = some 1024 ∧ u.log.dev.length = 3 ∧
      (∀ j : Fin 3, (Tab.get u.log.dev (1024 + j)).isSome = true) ∧ Tab.get u.log.dev 1027 = none ∧ u.roomFor 3 := by
  unfold State.roomFor; decide +kernel
/-- An erase that waits while a record may be written, and one that goes on because none may. -/
def sEw (n : Nat) : State := let s := sL { lgA with op := .sector n, nor := true } [rc 1]; { s with clk := { s.clk with phase := .softLog } }
theorem wit_LogbookWritesAndReads_suspended : (∀ k : Fin 2, let u := uk 14 (sEw (1 - k));
      u.nvmRuns = true ∧ u.log.failed = false ∧ u.eraseWaits = true ∧ u.log.writable = decide (k = 0)) ∧
    (let s : State := { sEa with log := { sEa.log with pfw := true, nor := true } };
      (uk 14 s).eraseWaits = true ∧ (uk 14 s).log.writable = true ∧ (uk 14 s).nvmRuns = true ∧ (uk 14 s).log.op = .all 0 ∧ (uk 14 s).log.failed = false) := by
  decide +kernel
/-- A fenced lane whose transfer is in flight; a fenced front-stage unit without a call. -/
theorem wit_DetectorsAct_fenced : (let u := uk 6 { sTf with tok := { sTf.tok with fenced := 4 } };
      u.running = true ∧ u.unitFenced 0 2 = true ∧ u.wch.swaps.length = 0 ∧ u.tok.spareUsed = false ∧
        (u.tok.path.map fun y => y.onLane 2 u.tally) = [true]) ∧
    (let u := uk 11 { sJ with tre := { sJ.tre with fst := 1 } };
      codeKind 0x0B = some 3 ∧ u.unitFenced 3 0 = true ∧ u.wch.swaps.length = 0 ∧ u.usersOf 3 0 0 = []) := by decide +kernel
theorem wit_DetectorsAct_current : let s := setE { entA with state := .recover, req := { entA.req with recov := some recA, flushed := true } } (flushed (sRec sA));
    let u := uk 14 s;
    u.running = true ∧ u.mem.en = true ∧ (u.ctlPage 3).map Run.page = some 0x100000 ∧ (u.current 3 0x100000).committed = 2 ∧ (u.entry 3).committed = 2 ∧
      (u.entry 3).req.stop.isNone = true ∧ (u.entry 3).req.ended = false ∧ recA.prior ≠ .reuse ∧ u.mem.scLines.length = 0 ∧
      (uk 14 (sRv2 true)).mem.scLines.length = 0 ∧ ((uk 14 (sRv2 true)).current 3 0x100000).committed = 0 := by decide +kernel
/-- A packet ahead of its order. -/
theorem wit_FerryTransfers_gap : ((u0 sUpF).group 1).rxSeq = 1 ∧ pktSound (pk 2) = true ∧ 0 < ((pk 2).seq.toNat + 65536 - 1) % 65536 ∧
    ((pk 2).seq.toNat + 65536 - 1) % 65536 < 32768 ∧ 0 < ((u0 sUpF).group 1).link := by decide +kernel
/-- A whole state of COMMITTED 2 has come for entry 4: it fits, and one that is announced with another H does not. -/
def gotS : List Byte := [2, 0, 0, 0] ++ List.replicate 16124 unlisted
def offS (h : Nat) : Offer := { offA with h := h, bytes := copySize, got := gotS }
def sSt (h : Nat) : State := { sWt with fry := { sWt.fry with offers := [offS h] } }
theorem gotS_length : gotS.length = 16128 := by
  rw [gotS, List.length_append, List.length_replicate]; rfl
theorem fitS : fitBytes copySize gotS = gotS := by
  rw [fitBytes, List.take_left' (by rw [gotS_length]; rfl)]
theorem wit_FerryTransfers_placed (h : Nat) (s : State) (hs : s = u0 (sSt 2)) (h3 : s.recvSegs 4 (offS h) = [(1, 0, 0)]) :
    let p := s.placeState 4 s.tally (s.recvSegs 4 (offS h)) (offS h).got
    p.2 = true ∧ (p.1.readCopy (copyAddr 0x100000 false)).committed = 2 := by
  obtain ⟨r, h1, h4⟩ : ∃ r, s.ctlPage 4 = some r ∧ r.page = 0x100000 ∧ s.ctlOk 4 r = true := by
    subst hs; exact ⟨⟨0x100000, 5, 1, 0, 0, 0, false⟩, by decide +kernel⟩
  have h5 : memWrite s.mem.bytes 0x100100 gotS = memWrite s.mem.bytes 0x100100 [2, 0, 0, 0] := by
    rw [gotS, memWrite_append, memWrite_absent]
    subst hs; decide +kernel
  have hg : (offS h).got = gotS := rfl
  dsimp only
  rw [h3, hg]
  simp only [State.placeState, State.wrArea, List.take_zero, List.drop_zero, if_true, h1, h4.2, fitS, h4.1]
  refine ⟨trivial, ?_⟩
  have h6 : leNat (memRead (memWrite s.mem.bytes 0x100100 [2, 0, 0, 0]) 0x100100 4) = 2 := by subst hs; decide +kernel
  have key : ∀ bs, ((s.wr (copyAddr 0x100000 false) bs).readCopy (copyAddr 0x100000 false)).committed =
      leNat (memRead (memWrite s.mem.bytes 0x100100 bs) 0x100100 4) := fun _ => rfl
  rw [key, h5, h6]
theorem wit_FerryTransfers_stateEnd : (u0 (sSt 2)).waiterOf (offS 2) = some 4 ∧ ((u0 (sSt 2)).ctlPage 4).map Run.page = some 0x100000 ∧
    0 < ((u0 (sSt 2)).group 1).link ∧ ((u0 (sSt 2)).entry 4).dom = offA.dom ∧ ((u0 (sSt 2)).entry 4).epoch = offA.epoch ∧
    (u0 (sSt 2)).recvSegs 4 (offS 2) = [(1, 0, 0)] ∧ segBytes [(1, 0, 0)] = 0 := by
  decide +kernel

theorem wit_FerryTransfers_other : (u0 (sSt 3)).waiterOf (offS 3) = some 4 ∧ (u0 (sSt 3)).recvSegs 4 (offS 3) = [(1, 0, 0)] ∧ (offS 3).h ≠ 2 := by
  decide +kernel
theorem wit_FerryTransfers_sound : (offS 2).got.length = (offS 2).bytes ∧ (∃ crc, crc32c (offS 2).got = crc) ∧ ∃ crc, crc32c (offS 2).got ≠ crc := by
  refine ⟨gotS_length, ⟨_, rfl⟩, crc32c gotS + 1, ?_⟩
  show crc32c gotS ≠ crc32c gotS + 1
  generalize crc32c gotS = x
  bv_omega
/-- A test outside BIST; SOFT in its Logbook step with the watchdog's clock; a block without power. -/
theorem wit_ResetsAndClocks_more : (uk 14 sJ).clk.phase ≠ .bist ∧ (uk 14 sJ).clk.lock = true ∧ (uk 14 sSoft).watchRuns = true ∧ (u0 sOff1).powered = false ∧
    (u0 sJ).clk.wrapper ≠ .mbist := by decide +kernel
/-- Twelve shifts, the last first in BS_SO, and an update, which drives the cells. -/
theorem test_boundary_scan : let bits := (List.range 12).map fun k => decide (k = 0 ∨ k = 5);
    (nx (exec (.bsMode 120 ⟨true, bits.map BsStep.shift ++ [.update]⟩) sJ)).nvmPins = .cells 0x021 ∧
    (nx (exec (.bsMode 120 ⟨false, [.capture 0x003, .shift true]⟩) sJ)).bsSo false = true ∧ (u0 sOff1).bsSo true = true := by decide +kernel

end Sys2Proof.Tests
end

section
/-! SUPPORT. The queue of a step (log entry 1): one equation per shape of the queue, and the statement of the request's journey that
they make up. -/

namespace Sys2Proof.Machine

/-- The block without a command waiting idles (log entry 1). -/
theorem step_of_pending_nil {s : State} (h : s.pending = []) : step s = .next s := by
  rw [step, h]

/-- The command at the front has left the queue when it acts: events are applied one at a time, in the order presented (R11). -/
theorem step_of_pending_cons {s : State} {c : Instr} {r : List Instr} (h : s.pending = c :: r) :
    step s = exec c { s with pending := r } := by
  rw [step, h]

/-- Settles O1, by the two shapes of the queue. -/
theorem stepTakesFront : Obligations.StepTakesFront := by
  intro c r s
  constructor
  · exact step_of_pending_cons (s := { s with pending := c :: r }) rfl
  · exact step_of_pending_nil (s := { s with pending := [] }) rfl

end Sys2Proof.Machine
end

section
/-! SUPPORT. The Ramp's shared operations (03 R49, R50, R52, R53, R60, R144): what each leaves unchanged and what it writes, said once. -/

namespace Sys2Proof.Machine

variable (s : State)

/-! ### Entries -/

/-- Entries stand where the Manifest stands. -/
theorem State.entry_congr {u v : State} (h : v.man = u.man) (k : Nat) : v.entry k = u.entry k := by
  unfold State.entry
  rw [h]

@[simp] theorem State.entry_count (b ev n k : Nat) : (s.count b ev n).entry k = s.entry k := State.entry_congr (by simp) k

@[simp] theorem State.entry_updDom (d : Nat) (f : Domain → Domain) (k : Nat) : (s.updDom d f).entry k = s.entry k := rfl

@[simp] theorem State.entry_updEntry (i : Nat) (f : Entry → Entry) : (s.updEntry i f).entry i = f (s.entry i) :=
  s.entry_setEntry i _

theorem State.entry_updEntry_other {i k : Nat} (f : Entry → Entry) (h : k ≠ i) : (s.updEntry i f).entry k = s.entry k :=
  s.entry_setEntry_other i k _ h

@[simp] theorem State.entry_updReq (i : Nat) (f : Req → Req) :
    (s.updReq i f).entry i = { s.entry i with req := f (s.entry i).req } := s.entry_updEntry i _

theorem State.entry_updReq_other {i k : Nat} (f : Req → Req) (h : k ≠ i) : (s.updReq i f).entry k = s.entry k :=
  s.entry_updEntry_other _ h

/-- Node memory reads as before where the memory side stands. -/
theorem memSame_of_mem {u v : State} (h : v.mem = u.mem) (a n : Nat) : MemSame u v a n := by
  intro k _
  unfold State.byte
  rw [h]

theorem hIdx_mkHandle {gen i : Nat} (h : i < 2 ^ 16) : hIdx (mkHandle gen i) = i := by
  simp [hIdx, mkHandle, fld, pack, Nat.shiftLeft_eq]
  omega

/-! ### Notices (11 R244, R261; log entry 80) -/

theorem State.noteCells_man (cs : List CellWords) (t : Stamp) : (s.noteCells cs t).man = s.man := by
  have h := congrArg State.man (s.noteCells_frame cs t)
  exact h
@[simp] theorem State.noteNow_man (op dom : Nat) (h : Handle) (t : Stamp) (ws : List Word) : (s.noteNow op dom h t ws).man = s.man :=
  s.noteCells_man _ t

theorem State.noteCells_mem (cs : List CellWords) (t : Stamp) : (s.noteCells cs t).mem = s.mem := by
  have h := congrArg State.mem (s.noteCells_frame cs t)
  exact h
@[simp] theorem State.noteNow_mem (op dom : Nat) (h : Handle) (t : Stamp) (ws : List Word) : (s.noteNow op dom h t ws).mem = s.mem :=
  s.noteCells_mem _ t

theorem State.noteCells_ramp (cs : List CellWords) (t : Stamp) : (s.noteCells cs t).ramp = s.ramp := by
  have h := congrArg State.ramp (s.noteCells_frame cs t)
  exact h
@[simp] theorem State.noteNow_ramp (op dom : Nat) (h : Handle) (t : Stamp) (ws : List Word) : (s.noteNow op dom h t ws).ramp = s.ramp :=
  s.noteCells_ramp _ t

/-- The handle 0 of a notice names no request, so such a notice waits for no build. -/
theorem State.note_zero (op dom : Nat) (t : Stamp) (ws : List Word) : s.note op dom 0#32 t ws = s.noteNow op dom 0#32 t ws := rfl

theorem State.building_index {h : Handle} {k : Nat} (hb : s.building h = some k) : k = hIdx h := by
  unfold State.building State.live at hb
  split at hb
  · cases hb
  · dsimp only at hb
    split at hb
    · simp only [Option.bind_some, Option.map_eq_some_iff] at hb
      obtain ⟨_, _, hk⟩ := hb
      exact hk.symm
    · cases hb

/-- A notice enters the queue, or joins those that the build of its own request holds back. -/
theorem State.note_cases (op dom : Nat) (h : Handle) (t : Stamp) (ws : List Word) :
    s.note op dom h t ws = s.noteNow op dom h t ws ∨
      ∃ f : Option Build → Option Build, s.note op dom h t ws = s.updReq (hIdx h) fun r => { r with build := f r.build } := by
  unfold State.note
  split
  · exact .inl rfl
  · next i hb =>
    rw [s.building_index hb]
    exact .inr ⟨fun o => o.map fun b => { b with held := b.held ++ [⟨op, dom, t, ws⟩] }, rfl⟩

@[simp] theorem State.note_mem (op dom : Nat) (h : Handle) (t : Stamp) (ws : List Word) : (s.note op dom h t ws).mem = s.mem := by
  obtain e | ⟨f, e⟩ := s.note_cases op dom h t ws <;> simp [e]

@[simp] theorem State.note_ramp (op dom : Nat) (h : Handle) (t : Stamp) (ws : List Word) : (s.note op dom h t ws).ramp = s.ramp := by
  obtain e | ⟨f, e⟩ := s.note_cases op dom h t ws <;> simp [e]

theorem State.entry_note_other {k : Nat} (op dom : Nat) {h : Handle} (t : Stamp) (ws : List Word) (hk : k ≠ hIdx h) :
    (s.note op dom h t ws).entry k = s.entry k := by
  obtain e | ⟨f, e⟩ := s.note_cases op dom h t ws
  · rw [e, State.entry_congr (s.noteNow_man ..)]
  · rw [e, s.entry_updReq_other _ hk]

/-- Of the entry that a notice concerns, at most the notices held back by its build change. -/
theorem State.entry_note (op dom : Nat) (h : Handle) (t : Stamp) (ws : List Word) :
    ∃ b, (s.note op dom h t ws).entry (hIdx h) =
      { s.entry (hIdx h) with req := { (s.entry (hIdx h)).req with build := b } } := by
  obtain e | ⟨f, e⟩ := s.note_cases op dom h t ws
  · exact ⟨(s.entry (hIdx h)).req.build, by rw [e, State.entry_congr (s.noteNow_man ..)]⟩
  · exact ⟨f (s.entry (hIdx h)).req.build, by rw [e, s.entry_updReq]⟩

/-! ### END (07 R144) -/

@[simp] theorem State.raiseEnd_mem (i o : Nat) (d t : Stamp) : (s.raiseEnd i o d t).mem = s.mem := by
  unfold State.raiseEnd
  dsimp only
  split <;> simp

@[simp] theorem State.raiseEnd_ramp (i o : Nat) (d t : Stamp) : (s.raiseEnd i o d t).ramp = s.ramp := by
  unfold State.raiseEnd
  dsimp only
  split <;> simp

theorem State.entry_raiseEnd_other {i k : Nat} (o : Nat) (d t : Stamp) (hi : i < 2 ^ 16) (hk : k ≠ i) :
    (s.raiseEnd i o d t).entry k = s.entry k := by
  unfold State.raiseEnd
  dsimp only
  split
  · rfl
  · rw [State.entry_count, State.entry_note_other _ _ _ _ _ (by rwa [hIdx_mkHandle hi]), s.entry_setEntry_other _ _ _ hk]

/-- END is raised once: the entry's outcome is the first one's. -/
theorem State.entry_raiseEnd {i : Nat} (o : Nat) (d t : Stamp) (hi : i < 2 ^ 16) :
    ∃ b, (s.raiseEnd i o d t).entry i =
      { s.entry i with
        outcome := if (s.entry i).endv then (s.entry i).outcome else o
        endv := true
        req := { (s.entry i).req with build := b } } := by
  unfold State.raiseEnd
  dsimp only
  split
  · next h => exact ⟨(s.entry i).req.build, by rw [← h]⟩
  · next h =>
    obtain ⟨b, e⟩ := (s.setEntry i { s.entry i with outcome := o, endv := true }).entry_note 0x80 (s.entry i).dom
      (mkHandle (s.entry i).gen i) t [BitVec.ofNat 64 o, pack 64 [(0, (s.entry i).committed), (32, (s.entry i).released)],
        BitVec.ofNat 64 d]
    rw [hIdx_mkHandle hi, State.entry_setEntry] at e
    exact ⟨b, by rw [State.entry_count]; exact e⟩

/-! ### Hold use (R62) -/

@[simp] theorem State.holdWatch_man (before : Nat) (t : Stamp) : (State.holdWatch before s t).man = s.man := by
  unfold State.holdWatch
  dsimp only
  split
  · split <;> simp [State.note_zero]
  · rfl

@[simp] theorem State.holdWatch_mem (before : Nat) (t : Stamp) : (State.holdWatch before s t).mem = s.mem := by
  unfold State.holdWatch
  dsimp only
  split
  · split <;> simp
  · rfl

/-- Only the peak of the Hold's use may rise. -/
@[simp] theorem State.holdWatch_ramp (before : Nat) (t : Stamp) :
    (State.holdWatch before s t).ramp = { s.ramp with peak := max s.ramp.peak s.holdUse } := by
  unfold State.holdWatch
  dsimp only
  split
  · split <;> simp
  · rfl

@[simp] theorem State.entry_holdWatch (before : Nat) (t : Stamp) (k : Nat) : (State.holdWatch before s t).entry k = s.entry k :=
  State.entry_congr (s.holdWatch_man before t) k

/-! ### The Token Out queue (R49, R268) -/

/-- No word of the lane in the queue comes later than the key. -/
def NoneLater (q : List OutWord) (lane : Nat) (key : Stamp × Nat) : Prop :=
  ∀ x, x ∈ q → x.lane = lane → x.key.1 < key.1 ∨ (x.key.1 = key.1 ∧ x.key.2 ≤ key.2)

theorem insWord_append {q : List OutWord} {w : OutWord} (h : NoneLater q w.lane w.key) : insWord w q = q ++ [w] := by
  induction q with
  | nil => rfl
  | cons x r ih =>
    obtain ⟨hx, hr⟩ := List.forall_mem_cons.1 h
    have hn : ¬ (w.lane = x.lane ∧ (w.key.1 < x.key.1 ∨ (w.key.1 = x.key.1 ∧ w.key.2 < x.key.2))) := by
      rintro ⟨hl, hk⟩
      have h' := hx hl.symm
      grind
    rw [insWord, if_neg hn, ih hr, List.cons_append]

theorem NoneLater.append {q ws : List OutWord} {lane : Nat} {key : Stamp × Nat} (hq : NoneLater q lane key)
    (hw : ∀ w, w ∈ ws → w.lane = lane ∧ w.key = key) : NoneLater (q ++ ws) lane key := by
  intro x hx hl
  obtain hx | hx := List.mem_append.1 hx
  · exact hq x hx hl
  · rw [(hw x hx).2]
    exact .inr ⟨rfl, Nat.le_refl _⟩

theorem foldl_insWord_append {ws q : List OutWord} {lane : Nat} {key : Stamp × Nat} (hq : NoneLater q lane key)
    (hw : ∀ w, w ∈ ws → w.lane = lane ∧ w.key = key) : ws.foldl (fun q w => insWord w q) q = q ++ ws := by
  induction ws generalizing q with
  | nil => simp
  | cons w r ih =>
    obtain ⟨⟨rfl, rfl⟩, hr⟩ := List.forall_mem_cons.1 hw
    have hq' : NoneLater (q ++ [w]) w.lane w.key := hq.append (by simp)
    rw [List.foldl_cons, insWord_append hq, ih hq' hr, List.append_assoc, List.singleton_append]

/-- Words of one lane and key join the queue behind those that are there, if none of that lane comes later. -/
theorem State.pushWords_outq {ws : List OutWord} {lane : Nat} {key : Stamp × Nat} (hq : NoneLater s.ramp.outq lane key)
    (hw : ∀ w, w ∈ ws → w.lane = lane ∧ w.key = key) : (s.pushWords ws).ramp.outq = s.ramp.outq ++ ws :=
  foldl_insWord_append hq hw

theorem mem_insWord (w : OutWord) (q : List OutWord) : w ∈ insWord w q := by
  induction q with
  | nil => simp [insWord]
  | cons x r ih =>
    unfold insWord
    split <;> simp [ih]

/-- A single word pushed is in the queue, wherever its place is. -/
theorem State.mem_pushWords (w : OutWord) : w ∈ (s.pushWords [w]).ramp.outq := mem_insWord w s.ramp.outq


end Sys2Proof.Machine
end

section
/-! SUPPORT. The release of a chunk (03 R49, R50, R52, R53, R373): the words that its actions give, their fields, what leaves the Hold with
it, and the end of the answer. -/

namespace Sys2Proof.Machine

variable (s : State)

/-! ### The words of a release (R49, R53) -/

theorem emits_tokens {redact : Nat} {repl : List Nat} {prev : Bool} {hs : List Held}
    (h : ∀ x, x ∈ hs → x.act = .pass ∨ x.act = .flag) :
    (emits redact repl prev hs).1 = hs.map fun x => ⟨x.tok, 0, x.pos, true⟩ := by
  induction hs generalizing prev with
  | nil => rfl
  | cons x r ih =>
    obtain ⟨hx, hr⟩ := List.forall_mem_cons.1 h
    rcases hx with hx | hx <;> simp [emits, hx, ih hr]

theorem emits_redacts {redact : Nat} {repl : List Nat} {prev : Bool} {hs : List Held} (h : ∀ x, x ∈ hs → x.act = .redact) :
    (emits redact repl prev hs).1 = hs.map fun x => ⟨redact, 1, x.pos, true⟩ := by
  induction hs generalizing prev with
  | nil => rfl
  | cons x r ih =>
    obtain ⟨hx, hr⟩ := List.forall_mem_cons.1 h
    simp [emits, hx, ih hr]

/-- Behind a replaced token, further replaced tokens give no words. -/
theorem emits_replaced {redact : Nat} {repl : List Nat} {hs : List Held} (h : ∀ x, x ∈ hs → x.act = .replace) :
    (emits redact repl true hs).1 = [] := by
  induction hs with
  | nil => rfl
  | cons x r ih =>
    obtain ⟨hx, hr⟩ := List.forall_mem_cons.1 h
    simp [emits, hx, ih hr]

/-- Replaced tokens give one copy of the replacement, at the first one's position. -/
theorem emits_replaces {redact : Nat} {repl : List Nat} {prev : Bool} {x : Held} {r : List Held}
    (h : ∀ y, y ∈ x :: r → y.act = .replace) :
    (emits redact repl prev (x :: r)).1 =
      if prev then [] else repl.mapIdx fun k w => ⟨w, 2, x.pos, decide (k + 1 = repl.length)⟩ := by
  obtain ⟨hx, hr⟩ := List.forall_mem_cons.1 h
  cases prev <;> simp [emits, hx, emits_replaced hr]

/-- The origins of R53 fit their field. -/
theorem emits_origin {redact : Nat} {repl : List Nat} {prev : Bool} {hs : List Held} {e : Emit}
    (h : e ∈ (emits redact repl prev hs).1) : e.origin < 4 := by
  induction hs generalizing prev with
  | nil => cases h
  | cons x r ih =>
    unfold emits at h
    split at h
    · obtain rfl | h := List.mem_cons.1 h
      · exact (by decide : 1 < 4)
      · exact ih h
    · dsimp only at h
      split at h
      · exact ih h
      · obtain h | h := List.mem_append.1 h
        · obtain ⟨k, _, rfl⟩ := List.mem_mapIdx.1 h
          exact (by decide : 2 < 4)
        · exact ih h
    · exact ih h
    · obtain rfl | h := List.mem_cons.1 h
      · exact (by decide : 0 < 4)
      · exact ih h

theorem fld_toNat {n : Nat} (w : BitVec n) (lo len : Nat) : fld w lo len = w.toNat / 2 ^ lo % 2 ^ len := by
  rw [fld, Nat.shiftRight_eq_div_pow]

theorem getLsbD_eq_fld {n : Nat} (w : BitVec n) (k : Nat) : w.getLsbD k = decide (fld w k 1 = 1) := by
  rw [fld_toNat]
  exact Nat.testBit_eq_decide_div_mod_eq

theorem Act.code_lt (a : Act) : a.code < 8 := by cases a <;> decide

theorem nb_lt (b : Bool) : nb b < 2 := by cases b <;> decide

theorem nb_eq_one (b : Bool) : nb b = 1 ↔ b = true := by cases b <;> decide

theorem outWord_toNat {h : Handle} {e : Emit} {a : Act} {esc miss last cend : Bool} {r : Stamp} (he : e.origin < 4) :
    (outWord h e a esc miss last cend r).toNat = h.toNat + (e.tok % 2 ^ 18) * 2 ^ 32 + e.origin * 2 ^ 50 + a.code * 2 ^ 52 +
      nb esc * 2 ^ 55 + nb miss * 2 ^ 56 + nb last * 2 ^ 57 + nb cend * 2 ^ 58 + (e.pos % 2 ^ 16) * 2 ^ 62 +
      (r % 2 ^ 12) * 2 ^ 78 := by
  have h1 := h.isLt
  have h2 := a.code_lt
  have h3 := nb_lt esc
  have h4 := nb_lt miss
  have h5 := nb_lt last
  have h6 := nb_lt cend
  simp only [outWord, pack, List.foldl, Nat.shiftLeft_eq, BitVec.toNat_ofNat]
  omega

section
variable {h : Handle} {e : Emit} {a : Act} {esc miss last cend : Bool} {r : Stamp} (he : e.origin < 4)
include he

theorem outWord_fields :
    let w := outWord h e a esc miss last cend r
    fld w 0 32 = h.toNat ∧ fld w 32 18 = e.tok % 2 ^ 18 ∧ fld w 50 2 = e.origin ∧ fld w 52 3 = a.code ∧ fld w 55 1 = nb esc ∧
    fld w 56 1 = nb miss ∧ fld w 57 1 = nb last ∧ fld w 58 1 = nb cend ∧ fld w 59 3 = 0 ∧ fld w 62 16 = e.pos % 2 ^ 16 ∧
    fld w 78 12 = r % 2 ^ 12 := by
  have h1 := h.isLt
  have h2 := a.code_lt
  have h3 := nb_lt esc
  have h4 := nb_lt miss
  have h5 := nb_lt last
  have h6 := nb_lt cend
  intro w
  simp only [w, fld_toNat, outWord_toNat he]
  refine ⟨?_, ?_, ?_, ?_, ?_, ?_, ?_, ?_, ?_, ?_, ?_⟩ <;> omega
end


/-- The words that a release stamped r puts on Token Out: the last one carries CHUNK_END, and LAST at the end of the answer. -/
def releaseWords (h : Handle) (i : Nat) (es : List Emit) (a : Act) (esc miss final : Bool) (r : Stamp) : List OutWord :=
  es.mapIdx fun k e =>
    let last := decide (k + 1 = es.length)
    ⟨i % 8, (r, i), r + 2, outWord h e a esc miss (last && final) last r, e.entry⟩

section
variable {h : Handle} {i : Nat} {es : List Emit} {a : Act} {esc miss final : Bool} {r : Stamp}

theorem releaseWords_key {w : OutWord} (hw : w ∈ releaseWords h i es a esc miss final r) : w.lane = i % 8 ∧ w.key = (r, i) := by
  obtain ⟨k, _, rfl⟩ := List.mem_mapIdx.1 hw
  exact ⟨rfl, rfl⟩

theorem releaseWords_eq_nil : releaseWords h i es a esc miss final r = [] ↔ es = [] := by
  simp [releaseWords]

variable (ho : ∀ e, e ∈ es → e.origin < 4)
include ho

/-- Place, handle, action, marks and stamp of each word of a release. -/
theorem releaseWords_getElem {k : Nat} {w : OutWord} (hw : (releaseWords h i es a esc miss final r)[k]? = some w) :
    w.lane = i % 8 ∧ w.since = r + 2 ∧ fld w.word 0 32 = h.toNat ∧ fld w.word 52 3 = a.code ∧ w.word.getLsbD 55 = esc ∧
      w.word.getLsbD 56 = miss ∧
      (w.word.getLsbD 58 = true ↔ k + 1 = (releaseWords h i es a esc miss final r).length) ∧
      (w.word.getLsbD 57 = true ↔ k + 1 = (releaseWords h i es a esc miss final r).length ∧ final = true) ∧
      fld w.word 59 3 = 0 ∧ fld w.word 78 12 = r % 2 ^ 12 := by
  have hl : (releaseWords h i es a esc miss final r).length = es.length := by simp [releaseWords]
  rw [hl]
  unfold releaseWords at hw
  rw [List.getElem?_mapIdx, Option.map_eq_some_iff] at hw
  obtain ⟨e, he, rfl⟩ := hw
  obtain ⟨f0, -, -, f52, f55, f56, f57, f58, f59, -, f78⟩ := outWord_fields (h := h) (a := a) (esc := esc) (miss := miss)
    (last := decide (k + 1 = es.length) && final) (cend := decide (k + 1 = es.length)) (r := r) (ho e (List.mem_of_getElem? he))
  refine ⟨rfl, rfl, f0, f52, ?_, ?_, ?_, ?_, f59, f78⟩
  · rw [getLsbD_eq_fld, f55]; simp [nb_eq_one]
  · rw [getLsbD_eq_fld, f56]; simp [nb_eq_one]
  · rw [getLsbD_eq_fld, f58]; simp [nb_eq_one]
  · rw [getLsbD_eq_fld, f57]; simp [nb_eq_one]

/-- Token, origin and position of the words of a release, in order. -/
theorem releaseWords_seen :
    ((releaseWords h i es a esc miss final r).map fun w => (fld w.word 32 18, fld w.word 50 2, fld w.word 62 16)) =
      es.map fun e => (e.tok % 2 ^ 18, e.origin, e.pos % 2 ^ 16) := by
  refine List.ext_getElem (by simp [releaseWords]) fun k h1 h2 => ?_
  simp only [releaseWords, List.getElem_map, List.getElem_mapIdx]
  obtain ⟨-, f32, f50, -, -, -, -, -, -, f62, -⟩ := outWord_fields (h := h) (a := a) (esc := esc) (miss := miss)
    (last := decide (k + 1 = es.length) && final) (cend := decide (k + 1 = es.length)) (r := r)
    (ho _ (List.getElem_mem (by simpa using h2)))
  rw [f32, f50, f62]

end

theorem State.emitRelease_eq (i : Nat) (es : List Emit) (a : Act) (esc miss final : Bool) (r : Stamp) :
    s.emitRelease i es a esc miss final r = s.pushWords (releaseWords (s.handleOf i) i es a esc miss final r) := rfl

/-- The end word (R53, R373). -/
def State.endWord (s : State) (i cause : Nat) (u : Stamp) : BitVec 96 :=
  pack 96 [(0, (s.handleOf i).toNat), (50, 3), (52, (Config.endAct s.fresh).toNat), (55, nb (Config.endEsc s.fresh)), (57, 1),
    (59, cause), (62, (Config.endPos s.fresh).toNat), (78, u % 2 ^ 12)]

/-- Its place on Token Out. -/
def State.endOut (s : State) (i cause : Nat) (u t : Stamp) : OutWord := ⟨i % 8, (t, i), t + 2, s.endWord i cause u, false⟩

theorem State.emitEnd_eq (i cause : Nat) (u t : Stamp) :
    s.emitEnd i cause u t = (s.pushWords [s.endOut i cause u t]).draw.updReq i fun r => { r with ended := true } := rfl

theorem State.endWord_fields {i cause : Nat} {u : Stamp} (h : cause < 8) :
    let w := s.endWord i cause u
    fld w 0 32 = (s.handleOf i).toNat ∧ fld w 50 2 = 3 ∧ fld w 57 1 = 1 ∧ fld w 59 3 = cause := by
  have h1 := (s.handleOf i).isLt
  have h2 := (Config.endAct s.fresh).isLt
  have h3 := nb_lt (Config.endEsc s.fresh)
  have h4 := (Config.endPos s.fresh).isLt
  intro w
  simp only [w, fld_toNat, endWord, pack, List.foldl, Nat.shiftLeft_eq, BitVec.toNat_ofNat]
  refine ⟨?_, ?_, ?_, ?_⟩ <;> omega

/-! ### The end of an answer (R50, R144, R373) -/

theorem State.finishAnswer_cases (i : Nat) (t : Stamp) :
    s.finishAnswer i t = s ∨
      s.finishAnswer i t = (s.updEntry i fun e => { e with state := .ended }).raiseEnd i 0 (s.entry i).lastrel t := by
  unfold State.finishAnswer
  dsimp only
  split
  · exact .inr rfl
  · exact .inl rfl

@[simp] theorem State.finishAnswer_mem (i : Nat) (t : Stamp) : (s.finishAnswer i t).mem = s.mem := by
  obtain e | e := s.finishAnswer_cases i t <;> simp [e]

@[simp] theorem State.finishAnswer_ramp (i : Nat) (t : Stamp) : (s.finishAnswer i t).ramp = s.ramp := by
  obtain e | e := s.finishAnswer_cases i t <;> simp [e]

theorem State.entry_finishAnswer_other {i k : Nat} (t : Stamp) (hi : i < 2 ^ 16) (hk : k ≠ i) :
    (s.finishAnswer i t).entry k = s.entry k := by
  obtain e | e := s.finishAnswer_cases i t
  · rw [e]
  · rw [e, State.entry_raiseEnd_other _ _ _ _ hi hk, s.entry_updEntry_other _ hk]

/-- Of the entry itself only its state, its outcome and the notices held back by its build change. -/
theorem State.entry_finishAnswer {i : Nat} (t : Stamp) (hi : i < 2 ^ 16) :
    ∃ st o v b, (s.finishAnswer i t).entry i =
      { s.entry i with state := st, outcome := o, endv := v, req := { (s.entry i).req with build := b } } := by
  obtain e | e := s.finishAnswer_cases i t
  · exact ⟨(s.entry i).state, (s.entry i).outcome, (s.entry i).endv, (s.entry i).req.build, by rw [e]⟩
  · obtain ⟨b, e'⟩ := State.entry_raiseEnd (s.updEntry i fun e => { e with state := .ended }) 0 (s.entry i).lastrel t hi
    rw [State.entry_updEntry] at e'
    exact ⟨.ended, _, true, b, by rw [e, e']⟩

/-- ANSWER becomes ENDED, and END is raised. -/
theorem State.finishAnswer_of_answer {i : Nat} (t : Stamp) (hi : i < 2 ^ 16) (ha : (s.entry i).state = .answer)
    (he : (s.entry i).req.ended = true) (hs : (s.entry i).req.stop = none) :
    ((s.finishAnswer i t).entry i).state = .ended ∧ ((s.finishAnswer i t).entry i).endv = true ∧
      ((s.entry i).endv = false → ((s.finishAnswer i t).entry i).outcome = 0) := by
  have e : s.finishAnswer i t = (s.updEntry i fun e => { e with state := .ended }).raiseEnd i 0 (s.entry i).lastrel t :=
    if_pos ⟨ha, he, hs⟩
  obtain ⟨b, e'⟩ := State.entry_raiseEnd (s.updEntry i fun e => { e with state := .ended }) 0 (s.entry i).lastrel t hi
  rw [State.entry_updEntry] at e'
  rw [e, e']
  exact ⟨rfl, rfl, fun h => by simp [h]⟩

theorem State.endIfDone_of_unstopped {i : Nat} (t : Stamp) (h : (s.entry i).req.stop = none) : s.endIfDone i t = s := by
  unfold State.endIfDone
  dsimp only
  rw [h]

/-- Nothing of the request waits for its release. -/
theorem State.frees_none {i : Nat} (h : ∀ d, d ∈ s.ramp.due → d.h ≠ s.handleOf i) :
    s.ramp.due.any (RampDue.frees (s.handleOf i) 0) = false := by
  rw [List.any_eq_false]
  intro d hd
  unfold RampDue.frees
  split <;> simp [h d hd]

/-- The last of a stopped request's earlier chunks has left: the end word follows, and END. -/
theorem State.endIfDone_of_done {i : Nat} {st : Stop} (t : Stamp) (hs : (s.entry i).req.stop = some st)
    (hc : (s.entry i).req.chunks = []) (he : (s.entry i).req.ended = false) (hd : ∀ d, d ∈ s.ramp.due → d.h ≠ s.handleOf i)
    (ht : (s.entry i).state = .stopped) :
    s.endIfDone i t = (s.emitEnd i st.cause st.stamp t).raiseEnd i st.cause st.stamp t := by
  unfold State.endIfDone
  simp only [hs, hc, he, s.frees_none hd, ht, List.isEmpty_nil, Bool.not_true, Bool.or_self, Bool.false_eq_true, if_false, if_true]


/-! ### Release (R49, R52, R53) -/

/-- The words of the first held chunk before they are marked, and whether its last token was REPLACE. -/
def State.chunkEmits (s : State) (i : Nat) (c : Chunk) : List Emit × Bool :=
  let ep := s.epochOf (s.entry i)
  emits ((ep.map fun p => p.redactTok).getD 0) ((ep.map fun p => p.repl).getD []) (s.entry i).req.lastRepl c.toks

/-- The entry of a request once a chunk of it has left the Hold. -/
def Entry.releasing (e : Entry) (c : Chunk) (r : Stamp) (lastRepl : Bool) : Entry :=
  { e with
    held := e.held - c.toks.length
    released := (e.released + c.toks.length) % 2 ^ 32
    lastrel := r
    req := { e.req.bury c (if c.missed then .missFlag else .judged) with lastRepl := lastRepl } }

/-- The chunk leaves the Hold and its words join the queue: `State.releaseChunk` up to the end of the answer. -/
def State.chunkLeaves (s : State) (i : Nat) (c : Chunk) (r : Stamp) : State :=
  let e := s.entry i
  let x := s.chunkEmits i c
  let q := s.emitRelease i x.1 c.merged c.mergedEsc c.missed (c.isEoa && e.req.stop.isNone) r
  let q := q.updEntry i fun e => e.releasing c r x.2
  let q := q.updDom e.dom fun d => { d with flags := d.flags + (c.toks.filter fun h => h.act = .flag).length }
  (q.count 11 0x11 1).holdWatch s.holdUse r

/-- The final word of an answer has left: the last of these words, or, without any, the end word. -/
def State.answerEnded (s : State) (i : Nat) (es : List Emit) (r : Stamp) : State :=
  if es.isEmpty then s.emitEnd i 0 r r else s.updReq i fun q => { q with ended := true }

/-- The answer ends with a release of these words. -/
def State.answerLeaves (s : State) (i : Nat) (es : List Emit) (r : Stamp) : State := (s.answerEnded i es r).finishAnswer i r

theorem State.releaseChunk_eq (i : Nat) (c : Chunk) (r : Stamp) :
    s.releaseChunk i c r =
      (if c.isEoa && (s.entry i).req.stop.isNone then (s.chunkLeaves i c r).answerLeaves i (s.chunkEmits i c).1 r
        else s.chunkLeaves i c r).endIfDone i r := rfl

@[simp] theorem State.chunkLeaves_mem (i : Nat) (c : Chunk) (r : Stamp) : (s.chunkLeaves i c r).mem = s.mem := by
  simp [State.chunkLeaves, State.emitRelease_eq, State.pushWords]

@[simp] theorem State.chunkLeaves_due (i : Nat) (c : Chunk) (r : Stamp) : (s.chunkLeaves i c r).ramp.due = s.ramp.due := by
  simp [State.chunkLeaves, State.emitRelease_eq, State.pushWords]

@[simp] theorem State.entry_draw (k : Nat) : s.draw.entry k = s.entry k := rfl

@[simp] theorem State.entry_pushWords (ws : List OutWord) (k : Nat) : (s.pushWords ws).entry k = s.entry k := rfl

@[simp] theorem State.entry_chunkLeaves (i : Nat) (c : Chunk) (r : Stamp) :
    (s.chunkLeaves i c r).entry i = (s.entry i).releasing c r (s.chunkEmits i c).2 := by
  simp [State.chunkLeaves, State.emitRelease_eq]

theorem State.entry_chunkLeaves_other {i k : Nat} (c : Chunk) (r : Stamp) (h : k ≠ i) :
    (s.chunkLeaves i c r).entry k = s.entry k := by
  simp [State.chunkLeaves, State.emitRelease_eq, State.entry_updEntry_other _ _ h]

theorem State.handleOf_chunkLeaves (i : Nat) (c : Chunk) (r : Stamp) : (s.chunkLeaves i c r).handleOf i = s.handleOf i := by
  simp [State.handleOf, Entry.releasing]

theorem State.chunkLeaves_outq {i : Nat} (c : Chunk) {r : Stamp} (hq : NoneLater s.ramp.outq (i % 8) (r, i)) :
    (s.chunkLeaves i c r).ramp.outq = s.ramp.outq ++ releaseWords (s.handleOf i) i (s.chunkEmits i c).1 c.merged c.mergedEsc
      c.missed (c.isEoa && (s.entry i).req.stop.isNone) r := by
  rw [← s.pushWords_outq hq fun _ => releaseWords_key]
  simp [State.chunkLeaves, State.emitRelease_eq]

/-! The end of the answer changes the entry's outcome alone, and puts the end word on Token Out if no word was released. -/

@[simp] theorem State.answerLeaves_mem (i : Nat) (es : List Emit) (r : Stamp) : (s.answerLeaves i es r).mem = s.mem := by
  rw [State.answerLeaves, State.finishAnswer_mem, State.answerEnded]
  split <;> simp [State.emitEnd_eq, State.pushWords]

theorem State.entry_answerEnded (i : Nat) (es : List Emit) (r : Stamp) :
    (s.answerEnded i es r).entry i = { s.entry i with req := { (s.entry i).req with ended := true } } := by
  unfold State.answerEnded
  split
  · exact State.entry_updReq _ _ _
  · exact State.entry_updReq _ _ _

theorem State.entry_answerLeaves_other {i k : Nat} (es : List Emit) (r : Stamp) (hi : i < 2 ^ 16) (hk : k ≠ i) :
    (s.answerLeaves i es r).entry k = s.entry k := by
  rw [State.answerLeaves, State.entry_finishAnswer_other _ _ hi hk, State.answerEnded]
  split
  · exact State.entry_updReq_other _ _ hk
  · exact State.entry_updReq_other _ _ hk

theorem State.entry_answerLeaves {i : Nat} (es : List Emit) (r : Stamp) (hi : i < 2 ^ 16) :
    ∃ st o v b, (s.answerLeaves i es r).entry i =
      { s.entry i with state := st, outcome := o, endv := v, req := { (s.entry i).req with ended := true, build := b } } := by
  have e := (s.answerEnded i es r).entry_finishAnswer r hi
  rw [s.entry_answerEnded] at e
  exact e

theorem State.answerLeaves_of_answer {i : Nat} (es : List Emit) (r : Stamp) (hi : i < 2 ^ 16) (ha : (s.entry i).state = .answer)
    (hs : (s.entry i).req.stop = none) :
    ((s.answerLeaves i es r).entry i).state = .ended ∧ ((s.answerLeaves i es r).entry i).endv = true ∧
      ((s.entry i).endv = false → ((s.answerLeaves i es r).entry i).outcome = 0) := by
  have h := (s.answerEnded i es r).finishAnswer_of_answer r hi
  rw [s.entry_answerEnded] at h
  exact h ha rfl hs

theorem State.answerLeaves_outq {i : Nat} {es : List Emit} {r : Stamp} (hq : NoneLater s.ramp.outq (i % 8) (r, i)) :
    (s.answerLeaves i es r).ramp.outq = s.ramp.outq ++ if es.isEmpty then [s.endOut i 0 r r] else [] := by
  rw [State.answerLeaves, State.finishAnswer_ramp, State.answerEnded]
  split
  · rw [State.emitEnd_eq]
    exact s.pushWords_outq hq (by simp [State.endOut])
  · simp

/-! ### The timed event RELEASE -/

theorem exec_release {t : Stamp} {idx : BitVec 16} (h : (s.upTo t (kRamp 5)).running = true) :
    exec (.release t idx) s = .next ((s.upTo t (kRamp 5)).releaseDue idx.toNat (s.upTo t (kRamp 5)).tally) := by
  show execRelease t idx s = _
  simp [execRelease, h]

section
variable {s} {i : Nat} {c : Chunk} {cs : List Chunk}

/-- The first held chunk, once judged, leaves at the later of its judgement and the last release, and not before (R52). -/
theorem State.releaseDue_eq {j t : Stamp} (hc : (s.entry i).req.chunks = c :: cs) (hj : c.judged = some j) :
    s.releaseDue i t = if max j (s.entry i).lastrel ≤ t then s.releaseChunk i c (max j (s.entry i).lastrel) else s := by
  simp [State.releaseDue, State.releaseAt, hc, hj]

/-- Only the chunk itself leaves the Hold. -/
theorem Req.bury_chunks {q : Req} (f : Fate) (hc : q.chunks = c :: cs) (hn : ∀ x, x ∈ cs → x.num ≠ c.num) :
    (q.bury c f).chunks = cs := by
  simp only [Req.bury, hc, ne_eq, List.filter_cons, not_true_eq_false, decide_false, Bool.false_eq_true, if_false]
  exact List.filter_eq_self.2 fun x hx => by simpa using hn x hx

theorem Entry.releasing_chunks {e : Entry} (r : Stamp) (l : Bool) (hc : e.req.chunks = c :: cs) (hn : ∀ x, x ∈ cs → x.num ≠ c.num) :
    (e.releasing c r l).req.chunks = cs := Req.bury_chunks (if c.missed then .missFlag else .judged) hc hn

/-- R50: with the last chunk of a stopped request, the end word follows and END is raised. -/
theorem State.releaseChunk_of_stopped {st : Stop} (r : Stamp) (hs : (s.entry i).req.stop = some st)
    (he : (s.entry i).req.ended = false) (hc : (s.entry i).req.chunks = [c]) (hd : ∀ d, d ∈ s.ramp.due → d.h ≠ s.handleOf i)
    (ht : (s.entry i).state = .stopped) :
    s.releaseChunk i c r =
      ((s.chunkLeaves i c r).emitEnd i st.cause st.stamp r).raiseEnd i st.cause st.stamp r := by
  have e := s.entry_chunkLeaves i c r
  rw [State.releaseChunk_eq, hs]
  simp only [Option.isNone_some, Bool.and_false, Bool.false_eq_true, if_false]
  refine State.endIfDone_of_done _ r ?_ ?_ ?_ ?_ ?_
  · rw [e]; exact hs
  · rw [e]; exact Entry.releasing_chunks r _ hc (by simp)
  · rw [e]; exact he
  · rwa [State.chunkLeaves_due, State.handleOf_chunkLeaves]
  · rw [e]; exact ht

/-- A chunk of a request that is not stopped leaves, and the answer ends with the chunk that holds STOP_TOK. -/
theorem State.releaseChunk_of_unstopped (r : Stamp) (hi : i < 2 ^ 16) (hs : (s.entry i).req.stop = none) :
    s.releaseChunk i c r =
      if c.isEoa then (s.chunkLeaves i c r).answerLeaves i (s.chunkEmits i c).1 r else s.chunkLeaves i c r := by
  have e := s.entry_chunkLeaves i c r
  rw [State.releaseChunk_eq, hs, Option.isNone_none, Bool.and_true]
  refine State.endIfDone_of_unstopped _ r ?_
  split
  · obtain ⟨_, _, _, _, e'⟩ := (s.chunkLeaves i c r).entry_answerLeaves (s.chunkEmits i c).1 r hi
    rw [e', e]
    exact hs
  · rw [e]
    exact hs

/-- R50: with the last chunk of a stopped request, the end word follows with the stop's CAUSE, and END is raised. -/
theorem State.releaseChunk_stopped {st : Stop} (r : Stamp) (hi : i < 2 ^ 16) (hs : (s.entry i).req.stop = some st)
    (he : (s.entry i).req.ended = false) (hc : (s.entry i).req.chunks = [c]) (hd : ∀ d, d ∈ s.ramp.due → d.h ≠ s.handleOf i)
    (ht : (s.entry i).state = .stopped) (hst : st.cause < 8) :
    let v := s.releaseChunk i c r
    (v.entry i).req.chunks = [] ∧ (v.entry i).req.ended = true ∧ (v.entry i).endv = true ∧
      ((s.entry i).endv = false → (v.entry i).outcome = st.cause) ∧ OthersStand s v i ∧
      ∃ w, w ∈ v.ramp.outq ∧ fld w.word 0 32 = (s.handleOf i).toNat ∧ fld w.word 50 2 = 3 ∧ w.word.getLsbD 57 = true ∧
        fld w.word 59 3 = st.cause ∧ w.since = r + 2 := by
  dsimp only
  rw [State.releaseChunk_of_stopped r hs he hc hd ht, State.emitEnd_eq]
  have hl := s.entry_chunkLeaves i c r
  have ho : OthersStand s (s.chunkLeaves i c r) i := fun k hk => s.entry_chunkLeaves_other c r hk
  have hh := s.handleOf_chunkLeaves i c r
  generalize s.chunkLeaves i c r = q at hl ho hh
  obtain ⟨b, e⟩ := State.entry_raiseEnd ((q.pushWords [q.endOut i st.cause st.stamp r]).draw.updReq i fun r => { r with ended := true })
    st.cause st.stamp r hi
  rw [State.entry_updReq, State.entry_draw, State.entry_pushWords, hl] at e
  obtain ⟨f0, f50, f57, f59⟩ := q.endWord_fields (i := i) (u := st.stamp) hst
  refine ⟨?_, ?_, ?_, ?_, fun k hk => ?_, q.endOut i st.cause st.stamp r, ?_, hh ▸ f0, f50, ?_, f59, rfl⟩
  · rw [e]
    exact Entry.releasing_chunks r (s.chunkEmits i c).2 hc (by simp)
  · rw [e]
  · rw [e]
  · rw [e]
    exact fun h => if_neg (by rw [Bool.not_eq_true]; exact h)
  · rw [State.entry_raiseEnd_other _ _ _ _ hi hk, State.entry_updReq_other _ _ hk, State.entry_draw, State.entry_pushWords, ho k hk]
  · rw [State.raiseEnd_ramp]
    exact State.mem_pushWords _ _
  · rw [getLsbD_eq_fld, State.endOut, f57]
    rfl

/-- What a release of a request that is not stopped leaves: node memory, every other entry, and of its own entry all but what the release
and the end of the answer write. -/
theorem State.releaseChunk_frame (r : Stamp) (hi : i < 2 ^ 16) (hs : (s.entry i).req.stop = none) :
    (s.releaseChunk i c r).mem = s.mem ∧ OthersStand s (s.releaseChunk i c r) i ∧
      ∃ st o v q, (s.releaseChunk i c r).entry i =
        { (s.entry i).releasing c r (s.chunkEmits i c).2 with state := st, outcome := o, endv := v, req := q } ∧
          q.chunks = ((s.entry i).releasing c r (s.chunkEmits i c).2).req.chunks ∧ (c.isEoa = false → st = (s.entry i).state) := by
  have e := s.entry_chunkLeaves i c r
  have ho : OthersStand s (s.chunkLeaves i c r) i := fun k hk => s.entry_chunkLeaves_other c r hk
  rw [s.releaseChunk_of_unstopped r hi hs]
  split
  · next hl =>
    obtain ⟨st, o, v, b, e'⟩ := (s.chunkLeaves i c r).entry_answerLeaves (s.chunkEmits i c).1 r hi
    refine ⟨by simp, fun k hk => ?_, st, o, v, { ((s.entry i).releasing c r (s.chunkEmits i c).2).req with ended := true, build := b },
      by rw [e', e], rfl, by simp [hl]⟩
    rw [State.entry_answerLeaves_other _ _ _ hi hk, ho k hk]
  · exact ⟨by simp, ho, _, _, _, _, e, rfl, fun _ => rfl⟩

/-- R49: the words of the release join the queue behind those that are there. -/
theorem State.releaseChunk_outq {r : Stamp} (hi : i < 2 ^ 16) (hs : (s.entry i).req.stop = none)
    (hq : NoneLater s.ramp.outq (i % 8) (r, i)) :
    ∃ fin, (s.releaseChunk i c r).ramp.outq =
        s.ramp.outq ++ releaseWords (s.handleOf i) i (s.chunkEmits i c).1 c.merged c.mergedEsc c.missed c.isEoa r ++ fin ∧
      fin.length = if c.isEoa && (s.chunkEmits i c).1.isEmpty then 1 else 0 := by
  have hl := s.chunkLeaves_outq c hq
  rw [hs, Option.isNone_none, Bool.and_true] at hl
  rw [s.releaseChunk_of_unstopped r hi hs]
  split
  · next hE =>
    rw [State.answerLeaves_outq _ (by rw [hl]; exact hq.append fun _ => releaseWords_key), hl]
    refine ⟨_, rfl, ?_⟩
    split <;> simp_all
  · next hE => exact ⟨[], by rw [hl, List.append_nil], by simp [hE]⟩

/-- R373: the answer ends with the chunk that holds STOP_TOK. -/
theorem State.releaseChunk_ends (r : Stamp) (hi : i < 2 ^ 16) (hs : (s.entry i).req.stop = none) (hE : c.isEoa = true)
    (ha : (s.entry i).state = .answer) :
    ((s.releaseChunk i c r).entry i).state = .ended ∧ ((s.releaseChunk i c r).entry i).endv = true ∧
      ((s.entry i).endv = false → ((s.releaseChunk i c r).entry i).outcome = 0) := by
  have h := (s.chunkLeaves i c r).answerLeaves_of_answer (s.chunkEmits i c).1 r hi
  rw [s.entry_chunkLeaves] at h
  rw [s.releaseChunk_of_unstopped r hi hs, if_pos hE]
  exact h ha hs

theorem State.chunkEmits_eq {ep : Epoch} (he : s.epochOf (s.entry i) = some ep) :
    s.chunkEmits i c = emits ep.redactTok ep.repl (s.entry i).req.lastRepl c.toks := by
  simp [State.chunkEmits, he]

end

/-- Settles O41: the words are those that `emits` gives for each action (`emits_tokens`, `emits_redacts`, `emits_replaces`), pushed behind
the queue, and a stopped request's last release is `State.releaseChunk_of_stopped`. -/
theorem releaseEmitsWords : Obligations.ReleaseEmitsWords := by
  intro t s u idx c cs j ep hu hrun i e r hc hn hj hep
  have hi : i < 2 ^ 16 := idx.isLt
  have hx : exec (.release t idx) s = .next (if r ≤ u.tally then u.releaseChunk i c r else u) := by
    rw [exec_release s (hu ▸ hrun), ← hu, State.releaseDue_eq hc hj]
  refine ⟨fun hr => ?before, fun st hr hs he hcs hd ht hst => ?stopped, fun hr hq _ hs => ?released⟩
  case before => rw [hx, if_neg (Nat.not_le.2 hr)]
  case stopped =>
    subst hcs
    rw [hx, if_pos hr]
    exact ⟨_, rfl, State.releaseChunk_stopped r hi hs he hc hd ht hst⟩
  case released =>
    rw [hx, if_pos hr]
    obtain ⟨hmem, ho, st, o, v, q, he, hqc, hst⟩ := State.releaseChunk_frame (c := c) r hi hs
    obtain ⟨fin, hout, hfin⟩ := State.releaseChunk_outq (c := c) hi hs (r := r) hq
    have hor : ∀ x, x ∈ (u.chunkEmits i c).1 → x.origin < 4 := fun x hx => emits_origin hx
    have hem := State.chunkEmits_eq (c := c) hep
    refine ⟨_, rfl, ho, memSame_of_mem hmem 0 0, ?_, ?_, ?_, ?_, _, fin, hout, fun hE => ?_, fun hE hw => ?_,
      fun k w hw => releaseWords_getElem hor hw, ⟨?_, ?_, ?_⟩, ?_, ?_⟩
    · rw [he]
      exact hqc.trans (Entry.releasing_chunks r _ hc hn)
    · rw [he]; rfl
    · rw [he]; rfl
    · rw [he]; rfl
    · refine List.eq_nil_of_length_eq_zero (hfin.trans (if_neg ?_))
      obtain hE | hE := hE
      · simp [hE]
      · simpa [releaseWords_eq_nil] using fun _ => hE
    · rw [hfin, if_pos (by simp [hE, releaseWords_eq_nil.1 hw])]
    · intro ha
      rw [releaseWords_seen hor, hem, emits_tokens ha, List.map_map]
      rfl
    · intro ha
      rw [releaseWords_seen hor, hem, emits_redacts ha, List.map_map]
      rfl
    · intro h hs' hcons ha
      rw [releaseWords_seen hor, hem, hcons, emits_replaces (hcons ▸ ha)]
      split
      · rfl
      · exact List.ext_getElem (by simp) (by simp)
    · exact fun hE ha => State.releaseChunk_ends r hi hs hE ha
    · intro hE
      rw [he]
      exact hst hE

end Sys2Proof.Machine
end

section
/-! SUPPORT. The misses of chunks (03 R54): DEADLINE_EXPIRY, where two held chunks have one number and where they differ. -/

namespace Sys2Proof.Machine

variable (s : State)

/-! ### The timed event DEADLINE_EXPIRY (R54) -/

theorem exec_deadlineExpiry {t : Stamp} {idx : BitVec 16} (h : (s.upTo t (kRamp 1)).running = true) :
    exec (.deadlineExpiry t idx) s = .next ((s.upTo t (kRamp 1)).expire idx.toNat (s.upTo t (kRamp 1)).tally) := by
  show execDeadlineExpiry t idx s = _
  simp [execDeadlineExpiry, h]

/-- A chunk of number 0 under FLAG, whose window of one microsecond begins at f. -/
def twinChunk (f : Stamp) (judged : Option Stamp) : Chunk :=
  ⟨0, f, { RampSet.zero with miss := true, deadline := 1 }, [], 1, [], some f, none, judged, false, false, .pass, false⟩

/-- Entry 0 holds two chunks of one number: at 2400 the first one's window still runs, and the second, whose window ends, is judged. -/
def twinState : State :=
  { State.reset with
    ramp := { State.reset.ramp with en := true }
    man := { State.reset.man with entries := [(0, { Entry.init 1 with
      state := .answer, req := { Req.init with chunks := [twinChunk 2400 none, twinChunk 0 (some 0)] } })] } }

/-- Neither chunk is due to miss. -/
theorem twinState_quiet : let u := twinState.upTo 2400 (kRamp 1)
    u.running = true ∧ ∀ x, x ∈ (u.entry 0).req.chunks →
      x.judged ≠ none ∨ x.set.passthru = true ∨ u.tally < x.f + 2400 * x.set.deadline := by
  decide +kernel

/-- Yet both are marked: `State.expire` looks its chunk up by number, finds the first one, and holds the second one's window against it. -/
theorem twinState_expires : let u := twinState.upTo 2400 (kRamp 1)
    (u.entry 0).req.chunks.map Chunk.missed = [false, false] ∧
      ((u.expire 0 u.tally).entry 0).req.chunks.map Chunk.missed = [true, true] := by
  decide +kernel

/-- Refutes O40: its last clause, that DEADLINE_EXPIRY has no effect before a window's end, asks nothing of the chunks' numbers. In
`twinState`, which holds two chunks of one number, no chunk is due and both are marked as missed. -/
theorem not_chunkTimes : ¬ Obligations.ChunkTimes := by
  intro h
  obtain ⟨-, -, hlast⟩ := h 2400 twinState 0
  obtain ⟨hrun, hquiet⟩ := twinState_quiet
  obtain ⟨hbefore, hafter⟩ := twinState_expires
  have he := hlast _ rfl hrun hquiet
  rw [exec_deadlineExpiry _ hrun] at he
  injection he with he
  have h0 : (0 : BitVec 16).toNat = 0 := rfl
  rw [h0] at he
  rw [he, hbefore] at hafter
  exact absurd hafter (by decide)

/-! What the clause lacks: where the chunks' numbers differ, each chunk is looked up as itself, and the event has no effect. -/

theorem find?_num {l : List Chunk} (hp : l.Pairwise fun x y => x.num ≠ y.num) {x : Chunk} (hx : x ∈ l) :
    l.find? (fun c => c.num = x.num) = some x := by
  induction l with
  | nil => cases hx
  | cons y r ih =>
    obtain ⟨hy, hr⟩ := List.pairwise_cons.1 hp
    obtain rfl | hx := List.mem_cons.1 hx
    · simp
    · rw [List.find?_cons_of_neg (by simpa using hy x hx), ih hr hx]

/-- R54: before its window's end a chunk does not miss, nor does a judged or a pass-through one. -/
theorem State.expire_of_quiet {i : Nat} {t : Stamp} (hp : (s.entry i).req.chunks.Pairwise fun x y => x.num ≠ y.num)
    (hq : ∀ x, x ∈ (s.entry i).req.chunks → x.judged ≠ none ∨ x.set.passthru = true ∨ t < x.f + 2400 * x.set.deadline) :
    s.expire i t = s := by
  unfold State.expire
  split
  · rfl
  · refine List.foldlRecOn (motive := fun v => v = s) _ _ rfl fun v hv x hx => ?_
    have hf : v.chunk i x.num = some x := hv ▸ find?_num hp hx
    rw [hf]
    obtain hj | hpt | ht := hq x hx
    · cases hw : x.wend <;> simp [hj, hv]
    · simp [Chunk.wend, hpt, hv]
    · cases hpt : x.set.passthru
      · simp [Chunk.wend, hpt, Nat.not_le.2 ht, hv]
      · simp [Chunk.wend, hpt, hv]

end Sys2Proof.Machine
end

section
/-! SUPPORT. The binary32 numbers (05 R99): their magnitudes in the order of their bits, and the one nearest to an exact value. -/

namespace Sys2Proof.Machine

/-! ### The magnitudes in order -/

/-- The magnitude, times 2^149, of the bits [30:0] of a pattern. The bits of the infinity stand for 2^128, the end of the range. -/
def f32Mag (k : Nat) : Nat :=
  if k / 2 ^ 23 = 0 then k % 2 ^ 23 else (2 ^ 23 + k % 2 ^ 23) * 2 ^ (k / 2 ^ 23 - 1)

/-- A significand of at most 24 bits under a unit 2^p: normal, or subnormal under the least unit; 2^24 carries into the exponent. -/
theorem f32Mag_significand {p g : Nat} (hg : g ≤ 2 ^ 24) (hn : p = 0 ∨ 2 ^ 23 ≤ g) : f32Mag (p * 2 ^ 23 + g) = g * 2 ^ p := by
  unfold f32Mag
  obtain hsub | hnorm | rfl : g < 2 ^ 23 ∨ (2 ^ 23 ≤ g ∧ g < 2 ^ 24) ∨ g = 2 ^ 24 := by omega
  · obtain rfl : p = 0 := by omega
    rw [if_pos (by omega)]
    omega
  · rw [if_neg (by omega), show (p * 2 ^ 23 + g) / 2 ^ 23 - 1 = p by omega, show 2 ^ 23 + (p * 2 ^ 23 + g) % 2 ^ 23 = g by omega]
  · rw [if_neg (by omega), show (p * 2 ^ 23 + 2 ^ 24) / 2 ^ 23 - 1 = p + 1 by omega,
      show 2 ^ 23 + (p * 2 ^ 23 + 2 ^ 24) % 2 ^ 23 = 2 ^ 23 by omega, Nat.pow_succ]
    omega

theorem f32Mag_lt_succ (k : Nat) : f32Mag k < f32Mag (k + 1) := by
  obtain ⟨p, g, rfl, hg, hn⟩ : ∃ p g, k = p * 2 ^ 23 + g ∧ g < 2 ^ 24 ∧ (p = 0 ∨ 2 ^ 23 ≤ g) :=
    ⟨k / 2 ^ 23 - 1, k - (k / 2 ^ 23 - 1) * 2 ^ 23, by omega, by omega, by omega⟩
  rw [Nat.add_assoc, f32Mag_significand (Nat.le_of_lt hg) hn, f32Mag_significand hg (by omega)]
  exact Nat.mul_lt_mul_of_pos_right (Nat.lt_succ_self g) (Nat.two_pow_pos p)

theorem f32Mag_lt {j k : Nat} (h : j < k) : f32Mag j < f32Mag k := by
  induction h with
  | refl => exact f32Mag_lt_succ j
  | @step k _ ih => exact Nat.lt_trans ih (f32Mag_lt_succ k)

theorem f32Mag_mul_lt {j k u : Nat} (hu : 0 < u) (h : j < k) : f32Mag j * u < f32Mag k * u :=
  Nat.mul_lt_mul_of_pos_right (f32Mag_lt h) hu

theorem f32Mag_mul_le {j k : Nat} (u : Nat) (h : j ≤ k) : f32Mag j * u ≤ f32Mag k * u := by
  obtain rfl | hlt := Nat.eq_or_lt_of_le h
  · exact Nat.le_refl _
  · exact Nat.mul_le_mul_right u (Nat.le_of_lt (f32Mag_lt hlt))

/-! ### Patterns as sign and magnitude -/

/-- A magnitude under a sign. -/
def signed (neg : Bool) (m : Nat) : Int := if neg then -m else m

theorem signed_mul (neg : Bool) (m c : Nat) : signed neg m * c = signed neg (m * c) := by
  cases neg with
  | false => exact (Int.natCast_mul m c).symm
  | true => exact (Int.neg_mul _ _).trans (congrArg Neg.neg (Int.natCast_mul m c).symm)

theorem signed_natAbs (v : Int) : signed (decide (v < 0)) v.natAbs = v := by
  simp only [signed, decide_eq_true_eq]
  split <;> omega

theorem signed_not (neg : Bool) (m : Nat) : signed (!neg) m = -signed neg m := by
  cases neg with
  | false => rfl
  | true => exact (Int.neg_neg _).symm

theorem signed_zero (neg : Bool) : signed neg 0 = 0 := by
  cases neg <;> rfl

theorem natAbs_signed (neg : Bool) (m : Nat) : (signed neg m).natAbs = m := by
  cases neg with
  | false => rfl
  | true => exact (Int.natAbs_neg _).trans (Int.natAbs_natCast m)

theorem signed_mul_signed (x y : Bool) (m n : Nat) : signed x m * signed y n = signed (x != y) (m * n) := by
  cases y with
  | false => rw [Bool.bne_false, ← signed_mul]; rfl
  | true => rw [Bool.bne_true, signed_not, ← signed_mul]; exact Int.mul_neg _ _

/-- The exponent of a pattern, read from its magnitude bits. -/
theorem exponent_eq_fld (a : F32) : (a.extractLsb' 23 8).toNat = fld a 0 31 / 2 ^ 23 := by
  rw [BitVec.extractLsb'_toNat, Nat.shiftRight_eq_div_pow, fld_toNat]
  omega

/-- The fraction of a pattern, read from its magnitude bits. -/
theorem fraction_eq_fld (a : F32) : (a.extractLsb' 0 23).toNat = fld a 0 31 % 2 ^ 23 := by
  rw [BitVec.extractLsb'_toNat, Nat.shiftRight_eq_div_pow, fld_toNat]
  omega

theorem f32Scaled_eq (a : F32) : f32Scaled a = signed (a.getLsbD 31) (f32Mag (fld a 0 31)) := by
  unfold f32Scaled f32Mag signed
  rw [exponent_eq_fld, fraction_eq_fld]
  by_cases hsub : fld a 0 31 / 2 ^ 23 = 0
  · simp only [if_pos hsub]
  · simp only [if_neg hsub, Int.natCast_mul, Int.natCast_add, Int.natCast_pow]
    rfl

/-- A pattern is finite if its magnitude is below that of the infinity. -/
theorem f32_finite_iff (a : F32) : a.extractLsb' 23 8 ≠ 255 ↔ fld a 0 31 < 255 * 2 ^ 23 := by
  have h31 : fld a 0 31 < 2 ^ 31 := Nat.mod_lt _ (by decide)
  have h255 : (255 : BitVec 8).toNat = 255 := rfl
  rw [ne_eq, ← BitVec.toNat_inj, exponent_eq_fld, h255]
  omega

/-- The pattern of a sign and a magnitude. -/
def f32Bits (neg : Bool) (n : Nat) : F32 := BitVec.ofNat 32 ((if neg then 2 ^ 31 else 0) + n)

theorem f32Bits_toNat (neg : Bool) {n : Nat} (hn : n < 2 ^ 31) : (f32Bits neg n).toNat = (if neg then 2 ^ 31 else 0) + n := by
  rw [f32Bits, BitVec.toNat_ofNat]
  split <;> omega

theorem f32Bits_mag (neg : Bool) {n : Nat} (hn : n < 2 ^ 31) : fld (f32Bits neg n) 0 31 = n := by
  rw [fld_toNat, f32Bits_toNat neg hn]
  split <;> omega

theorem f32Bits_sign (neg : Bool) {n : Nat} (hn : n < 2 ^ 31) : (f32Bits neg n).getLsbD 31 = neg := by
  rw [BitVec.getLsbD, Nat.testBit_eq_decide_div_mod_eq, f32Bits_toNat neg hn]
  cases neg with
  | false => exact decide_eq_false (by rw [if_neg Bool.false_ne_true]; omega)
  | true => exact decide_eq_true (by rw [if_pos rfl]; omega)

theorem f32Bits_even (neg : Bool) {n : Nat} (hn : n < 2 ^ 31) (he : n % 2 = 0) : (f32Bits neg n).getLsbD 0 = false := by
  rw [BitVec.getLsbD, Nat.testBit_eq_decide_div_mod_eq, f32Bits_toNat neg hn]
  exact decide_eq_false (by split <;> omega)

theorem f32Scaled_f32Bits (neg : Bool) {n : Nat} (hn : n < 2 ^ 31) : f32Scaled (f32Bits neg n) = signed neg (f32Mag n) := by
  rw [f32Scaled_eq, f32Bits_mag neg hn, f32Bits_sign neg hn]

/-! ### The nearest magnitude -/

/-- The bits `n` are of the magnitude nearest to `X / U`: `X / U` is on the side of `n` of the midpoint between `n` and any other, and
at that midpoint only if `n` is even. -/
structure NearestMag (X U n : Nat) : Prop where
  below : ∀ j, j < n → f32Mag j * U + f32Mag n * U + n % 2 ≤ 2 * X
  above : ∀ j, n < j → 2 * X + n % 2 ≤ f32Mag n * U + f32Mag j * U

/-- What R99 asks of the rounding of `exact / unit`. -/
def RoundsTo (r : F32) (exact unit : Int) : Prop :=
  ((exact.natAbs : Int) < (2 ^ 24 * 2 - 1) * 2 ^ 252 * unit → r.extractLsb' 23 8 ≠ 255 ∧
    ∀ c : F32, c.extractLsb' 23 8 ≠ 255 →
      (f32Scaled r * unit - exact).natAbs ≤ (f32Scaled c * unit - exact).natAbs ∧
      (f32Scaled c ≠ f32Scaled r → (f32Scaled r * unit - exact).natAbs = (f32Scaled c * unit - exact).natAbs → r.getLsbD 0 = false)) ∧
  ((2 ^ 24 * 2 - 1) * 2 ^ 252 * unit ≤ exact → r = 0x7F800000) ∧
  (exact ≤ -((2 ^ 24 * 2 - 1) * 2 ^ 252 * unit) → r = 0xFF800000)

/-- The midpoint between the largest finite number and the end of the range is the bound of R99. -/
theorem overflow_midpoint (U : Nat) :
    f32Mag (255 * 2 ^ 23 - 1) * U + f32Mag (255 * 2 ^ 23) * U = 2 * ((2 ^ 24 * 2 - 1) * 2 ^ 252 * U) := by
  have h : f32Mag (255 * 2 ^ 23 - 1) + f32Mag (255 * 2 ^ 23) = 2 * ((2 ^ 24 * 2 - 1) * 2 ^ 252) := by decide
  rw [← Nat.add_mul, h, Nat.mul_assoc]

/-- The nearest magnitude is finite exactly below the bound of R99; at the bound itself the last finite one is odd and gives way. -/
theorem NearestMag.lt_inf_iff {X U n : Nat} (h : NearestMag X U n) (hU : 0 < U) :
    n < 255 * 2 ^ 23 ↔ X < (2 ^ 24 * 2 - 1) * 2 ^ 252 * U := by
  have hmid := overflow_midpoint U
  constructor
  · intro hn
    have habove := h.above _ hn
    obtain rfl | hlt := Nat.eq_or_lt_of_le (Nat.le_sub_one_of_lt hn)
    · omega
    · have hle := f32Mag_mul_lt hU hlt
      omega
  · refine fun hX => Nat.lt_of_not_le fun hn => ?_
    have hbelow := h.below (255 * 2 ^ 23 - 1) (by omega)
    have hle := f32Mag_mul_le U hn
    omega

/-- Where another magnitude lies, seen from the nearest one. -/
theorem NearestMag.side {X U n : Nat} (h : NearestMag X U n) (hU : 0 < U) (j : Nat) :
    (f32Mag j * U < f32Mag n * U ∧ f32Mag j * U + f32Mag n * U + n % 2 ≤ 2 * X) ∨ f32Mag j * U = f32Mag n * U ∨
      (f32Mag n * U < f32Mag j * U ∧ 2 * X + n % 2 ≤ f32Mag n * U + f32Mag j * U) := by
  obtain hj | rfl | hj := Nat.lt_trichotomy j n
  · exact .inl ⟨f32Mag_mul_lt hU hj, h.below j hj⟩
  · exact .inr (.inl rfl)
  · exact .inr (.inr ⟨f32Mag_mul_lt hU hj, h.above j hj⟩)

/-- No number is nearer to the exact value than the nearest magnitude under the value's own sign, and none other is as near unless
that magnitude is even. -/
theorem NearestMag.distance_le {X U n : Nat} (h : NearestMag X U n) (hX : 0 < X) (hU : 0 < U) (neg x : Bool) (j : Nat) :
    (signed neg (f32Mag n * U) - signed neg X).natAbs ≤ (signed x (f32Mag j * U) - signed neg X).natAbs ∧
      (signed x (f32Mag j * U) ≠ signed neg (f32Mag n * U) →
        (signed neg (f32Mag n * U) - signed neg X).natAbs = (signed x (f32Mag j * U) - signed neg X).natAbs → n % 2 = 0) := by
  have hside := h.side hU j
  generalize f32Mag j * U = y at *
  generalize f32Mag n * U = z at *
  cases neg <;> cases x <;> simp only [signed, reduceIte, Bool.false_eq_true] <;> omega

theorem signed_mul_inj {x y : Bool} {m n c : Nat} (hc : 0 < c) (h : signed x (m * c) = signed y (n * c)) :
    signed x m = signed y n := by
  rw [← signed_mul, ← signed_mul] at h
  exact Int.eq_of_mul_eq_mul_right (by omega) h

/-- R99 of a pattern that is the nearest magnitude, or the infinity beyond the largest one, under the sign of the exact value. -/
theorem NearestMag.roundsTo {X U n : Nat} (h : NearestMag X U n) (hX : 0 < X) (hU : 0 < U) (neg : Bool) :
    RoundsTo (if 255 * 2 ^ 23 ≤ n then fInf neg else f32Bits neg n) (signed neg X) U := by
  have hfin := h.lt_inf_iff hU
  have hbound : 0 < (2 ^ 24 * 2 - 1) * 2 ^ 252 * U := Nat.mul_pos (by decide) hU
  have habs : (signed neg X).natAbs = X := natAbs_signed neg X
  refine ⟨fun hlt => ?_, fun hle => ?_, fun hle => ?_⟩
  · have hn : n < 255 * 2 ^ 23 := by omega
    have hn31 : n < 2 ^ 31 := by omega
    rw [if_neg (by omega), f32_finite_iff, f32Bits_mag neg hn31]
    refine ⟨hn, fun c _ => ?_⟩
    obtain ⟨hle, htie⟩ := h.distance_le hX hU neg (c.getLsbD 31) (fld c 0 31)
    rw [f32Scaled_f32Bits neg hn31, f32Scaled_eq c, signed_mul, signed_mul]
    exact ⟨hle, fun hne heq => f32Bits_even neg hn31 (htie (fun he => hne (signed_mul_inj hU he)) heq)⟩
  · cases neg <;> simp only [signed, reduceIte, Bool.false_eq_true] at hle
    · rw [if_pos (by omega)]
      rfl
    · omega
  · cases neg <;> simp only [signed, reduceIte, Bool.false_eq_true] at hle
    · omega
    · rw [if_pos (by omega)]
      rfl

end Sys2Proof.Machine
end

section
/-! SUPPORT. Rounding to binary32 (05 R95, R99): `fRound` finds the magnitude nearest to its exact value; a sum and a product round
their exact value once. -/

namespace Sys2Proof.Machine

/-! ### The rounded quotient (R95) -/

theorem bitLen_bounds {m : Nat} (hm : m ≠ 0) : 2 ^ (bitLen m - 1) ≤ m ∧ m < 2 ^ bitLen m := by
  rw [bitLen, if_neg hm]
  exact ⟨Nat.log2_self_le hm, Nat.lt_log2_self⟩

theorem lt_two_pow_bitLen (m : Nat) : m < 2 ^ bitLen m := by
  obtain rfl | hm := Nat.eq_zero_or_pos m
  · decide
  · exact (bitLen_bounds (by omega)).2

/-- The shift of R95 is the rounded quotient by the power of two. -/
theorem rneShift_eq_rneDiv (z s : Nat) : rneShift z s = rneDiv z (2 ^ s) := by
  unfold rneShift rneDiv
  by_cases hs : s > bitLen z + 1
  · have hz : 2 * z < 2 ^ s := by
      calc 2 * z < 2 ^ bitLen z * 2 := by have := lt_two_pow_bitLen z; omega
        _ = 2 ^ (bitLen z + 1) := (Nat.pow_succ ..).symm
        _ ≤ 2 ^ s := Nat.pow_le_pow_right (by decide) (Nat.le_of_lt hs)
    rw [if_pos hs, Nat.div_eq_of_lt (by omega), Nat.mod_eq_of_lt (by omega)]
    simp only [Nat.zero_mod]
    rw [if_neg (by omega)]
  · rw [if_neg hs]
    obtain _ | s := s
    · simp only [Nat.pow_zero, Nat.div_one, Nat.mod_one, reduceIte]
      rw [if_neg (by omega)]
    · have hpow : 2 ^ (s + 1) = 2 * 2 ^ s := by rw [Nat.pow_succ, Nat.mul_comm]
      rw [if_neg (by omega), Nat.add_sub_cancel, hpow]
      simp only [gt_iff_lt, Nat.mul_lt_mul_left (show 0 < 2 by decide), Nat.mul_right_inj (show 2 ≠ 0 by decide)]

theorem rneDiv_mul_right (z n : Nat) {c : Nat} (hc : 0 < c) : rneDiv (z * c) (n * c) = rneDiv z n := by
  unfold rneDiv
  simp only [Nat.mul_div_mul_right _ _ hc, Nat.mul_mod_mul_right, ← Nat.mul_assoc, gt_iff_lt, Nat.mul_lt_mul_right hc,
    Nat.mul_left_inj (Nat.ne_of_gt hc)]

/-- The rounded quotient is the floor or one more, by the side of the midpoint and, at the midpoint, to the even one. -/
theorem rneDiv_cases (z n : Nat) :
    (rneDiv z n = z / n ∧ 2 * (z % n) + (z / n) % 2 ≤ n) ∨ (rneDiv z n = z / n + 1 ∧ n + (z / n + 1) % 2 ≤ 2 * (z % n)) := by
  unfold rneDiv
  dsimp only
  split
  · exact .inr ⟨rfl, by omega⟩
  · exact .inl ⟨rfl, by omega⟩

/-! ### `fRound` (R99) -/

/-- A value of 24 bits above a unit 2^p (fewer if the unit is the least) lies between two neighbours, and its rounded quotient by the
unit is the significand of the nearer one. -/
theorem nearestMag_rneDiv {X t p : Nat} (hX : X < 2 ^ (24 + (p + t))) (hp : p = 0 ∨ 2 ^ (23 + (p + t)) ≤ X) :
    NearestMag X (2 ^ t) (p * 2 ^ 23 + rneDiv X (2 ^ (p + t))) := by
  have hD : 0 < 2 ^ (p + t) := Nat.two_pow_pos _
  have hg : X / 2 ^ (p + t) < 2 ^ 24 := by
    rw [Nat.div_lt_iff_lt_mul hD, ← Nat.pow_add]
    exact hX
  have hn : p = 0 ∨ 2 ^ 23 ≤ X / 2 ^ (p + t) := by
    rw [Nat.le_div_iff_mul_le hD, ← Nat.pow_add]
    exact hp
  have hround := rneDiv_cases X (2 ^ (p + t))
  have hdiv := Nat.div_add_mod X (2 ^ (p + t))
  have hmod := Nat.mod_lt X hD
  have hU : 0 < 2 ^ t := Nat.two_pow_pos t
  have hlow : f32Mag (p * 2 ^ 23 + X / 2 ^ (p + t)) * 2 ^ t = 2 ^ (p + t) * (X / 2 ^ (p + t)) := by
    rw [f32Mag_significand (Nat.le_of_lt hg) hn, Nat.mul_assoc, ← Nat.pow_add, Nat.mul_comm]
  have hhigh : f32Mag (p * 2 ^ 23 + X / 2 ^ (p + t) + 1) * 2 ^ t = 2 ^ (p + t) * (X / 2 ^ (p + t)) + 2 ^ (p + t) := by
    rw [Nat.add_assoc, f32Mag_significand hg (by omega), Nat.mul_assoc, ← Nat.pow_add, Nat.mul_comm, Nat.mul_succ]
  generalize X / 2 ^ (p + t) = g at *
  obtain ⟨hr, hside⟩ | ⟨hr, hside⟩ := hround <;> rw [hr]
  · refine ⟨fun j hj => ?_, fun j hj => ?_⟩
    · have hlt := f32Mag_mul_lt hU hj
      omega
    · have hle := f32Mag_mul_le (2 ^ t) (Nat.succ_le_of_lt hj)
      simp only [Nat.succ_eq_add_one] at hle
      omega
  · rw [← Nat.add_assoc]
    refine ⟨fun j hj => ?_, fun j hj => ?_⟩
    · have hle := f32Mag_mul_le (2 ^ t) (Nat.le_of_lt_succ hj)
      omega
    · have hlt := f32Mag_mul_lt hU hj
      omega

/-- The magnitude that `fRound` gives to m * 2^(d - 149 - t), before its check for overflow. -/
def roundBits (m d t : Nat) : Nat :=
  (bitLen m + d - (24 + t)) * 2 ^ 23 + rneDiv (m * 2 ^ d) (2 ^ (bitLen m + d - (24 + t) + t))

theorem nearestMag_roundBits {m : Nat} (hm : m ≠ 0) (d t : Nat) : NearestMag (m * 2 ^ d) (2 ^ t) (roundBits m d t) := by
  obtain ⟨hlo, hhi⟩ := bitLen_bounds hm
  have hd : 0 < 2 ^ d := Nat.two_pow_pos d
  refine nearestMag_rneDiv ?_ ?_
  · calc m * 2 ^ d < 2 ^ bitLen m * 2 ^ d := Nat.mul_lt_mul_of_pos_right hhi hd
      _ = 2 ^ (bitLen m + d) := (Nat.pow_add ..).symm
      _ ≤ _ := Nat.pow_le_pow_right (by decide) (by omega)
  · refine (Nat.eq_zero_or_pos _).imp_right fun hp => ?_
    calc 2 ^ (23 + (bitLen m + d - (24 + t) + t)) ≤ 2 ^ (bitLen m - 1 + d) := Nat.pow_le_pow_right (by decide) (by omega)
      _ = 2 ^ (bitLen m - 1) * 2 ^ d := Nat.pow_add ..
      _ ≤ m * 2 ^ d := Nat.mul_le_mul_right _ hlo

/-- The significand of `fRound`, shifted left or rounded to the right, is the exact value divided by the result's unit. -/
theorem fRound_significand (m d t p : Nat) {s : Int} (hs : s = (p : Int) + t - d) :
    (if s ≤ 0 then m * 2 ^ (-s).toNat else rneShift m s.toNat) = rneDiv (m * 2 ^ d) (2 ^ (p + t)) := by
  split
  · have hd : d = (-s).toNat + (p + t) := by omega
    have hone : rneDiv (m * 2 ^ (-s).toNat) 1 = m * 2 ^ (-s).toNat := by
      simp only [rneDiv, Nat.div_one, Nat.mod_one]
      rw [if_neg (by omega)]
    have hpow : m * 2 ^ d = m * 2 ^ (-s).toNat * 2 ^ (p + t) := by rw [Nat.mul_assoc, ← Nat.pow_add, ← hd]
    rw [← hone, hpow, ← rneDiv_mul_right _ 1 (Nat.two_pow_pos (p + t)), Nat.one_mul]
  · have hpt : p + t = s.toNat + d := by omega
    rw [hpt, Nat.pow_add, rneDiv_mul_right _ _ (Nat.two_pow_pos d), rneShift_eq_rneDiv]

theorem fRound_eq (neg : Bool) {m : Nat} (hm : m ≠ 0) (d t : Nat) :
    fRound neg m ((d : Int) - 149 - t) = if 255 * 2 ^ 23 ≤ roundBits m d t then fInf neg else f32Bits neg (roundBits m d t) := by
  have hq : max ((d : Int) - 149 - t + bitLen m - 24) (-149) = ((bitLen m + d - (24 + t) : Nat) : Int) - 149 := by omega
  have hexp : (((bitLen m + d - (24 + t) : Nat) : Int) - 149 + 149).toNat = bitLen m + d - (24 + t) := by omega
  have hmag := fRound_significand m d t (bitLen m + d - (24 + t))
    (s := ((bitLen m + d - (24 + t) : Nat) : Int) - 149 - ((d : Int) - 149 - t)) (by omega)
  simp only [fRound, if_neg hm, hq, hexp, hmag]
  split
  · rw [if_pos]
    unfold roundBits
    omega
  · rfl

/-- A zero of either sign is the rounding of zero. -/
theorem roundsTo_zero {r : F32} (hr : fld r 0 31 = 0) {unit : Int} (hu : 0 < unit) : RoundsTo r 0 unit := by
  have hz : f32Scaled r = 0 := by
    rw [f32Scaled_eq, hr]
    cases r.getLsbD 31 <;> rfl
  refine ⟨fun _ => ⟨(f32_finite_iff r).2 (by omega), fun c _ => ?_⟩, by omega, by omega⟩
  rw [hz, Int.zero_mul, Int.sub_zero, Int.sub_zero]
  refine ⟨Nat.zero_le _, fun hne heq => ?_⟩
  have hc : f32Scaled c * unit = 0 := Int.natAbs_eq_zero.1 heq.symm
  exact absurd ((Int.mul_eq_zero.1 hc).resolve_right (by omega)) hne

/-- R99: `fRound` rounds the value m * 2^(d - 149 - t); in the statement's scale the value is m * 2^d and a number's unit is 2^t. -/
theorem fRound_roundsTo (neg : Bool) (m d t : Nat) :
    RoundsTo (fRound neg m ((d : Int) - 149 - t)) (signed neg (m * 2 ^ d)) (2 ^ t : Nat) := by
  have ht : 0 < 2 ^ t := Nat.two_pow_pos t
  obtain rfl | hm := Decidable.em (m = 0)
  · have hz : signed neg (0 * 2 ^ d) = 0 := by rw [Nat.zero_mul, signed_zero]
    rw [hz]
    exact roundsTo_zero (f32Bits_mag neg (by decide)) (by omega)
  · rw [fRound_eq neg hm]
    exact (nearestMag_roundBits hm d t).roundsTo (Nat.mul_pos (by omega) (Nat.two_pow_pos d)) ht neg

/-! ### The sum and the product -/

/-- A finite value is its sign, a significand and an exponent of at least -149. -/
theorem fVal_finite {a : F32} (ha : a.extractLsb' 23 8 ≠ 255) :
    ∃ x m, ∃ d : Nat, fVal a = .fin x m ((d : Int) - 149) ∧ f32Scaled a = signed x (m * 2 ^ d) := by
  have hex : (a.extractLsb' 23 8).toNat = fld a 23 8 := BitVec.extractLsb'_toNat ..
  have hfr : (a.extractLsb' 0 23).toNat = fld a 0 23 := BitVec.extractLsb'_toNat ..
  have hfin : fld a 23 8 ≠ 255 := fun h => ha (BitVec.eq_of_toNat_eq (hex.trans h))
  simp only [fVal, f32Scaled, hex, hfr, if_neg hfin]
  split
  · exact ⟨_, _, 0, rfl, by rw [Nat.pow_zero, Nat.mul_one]; rfl⟩
  · next hne =>
    have hexp : (fld a 23 8 : Int) - 150 = ((fld a 23 8 - 1 : Nat) : Int) - 149 := by omega
    refine ⟨fNeg a, fld a 0 23 + 2 ^ 23, fld a 23 8 - 1, by rw [hexp], ?_⟩
    simp only [signed, fNeg, bitAt, Nat.add_comm, Int.natCast_mul, Int.natCast_add, Int.natCast_pow]
    rfl

theorem scaled_eq_signed (x : Bool) (m : Nat) (d k : Nat) :
    scaled x m ((d : Int) - 149) ((k : Int) - 149) = signed x (m * 2 ^ (d - k)) := by
  have hsub : ((d : Int) - 149 - ((k : Int) - 149)).toNat = d - k := by omega
  simp only [scaled, signed, hsub, Int.natCast_mul, Int.natCast_pow]
  rfl

/-- The exact value of a significand under a common exponent below its own. -/
theorem signed_shift (x : Bool) (m : Nat) {d k : Nat} (hk : k ≤ d) :
    signed x (m * 2 ^ (d - k)) * (2 ^ k : Nat) = signed x (m * 2 ^ d) := by
  rw [signed_mul, Nat.mul_assoc, ← Nat.pow_add, Nat.sub_add_cancel hk]

theorem fadd_roundsTo {a b : F32} (ha : a.extractLsb' 23 8 ≠ 255) (hb : b.extractLsb' 23 8 ≠ 255) :
    RoundsTo (fadd a b) (f32Scaled a + f32Scaled b) 1 := by
  obtain ⟨x, m, d, hva, hsa⟩ := fVal_finite ha
  obtain ⟨y, n, f, hvb, hsb⟩ := fVal_finite hb
  have hmin : min ((d : Int) - 149) ((f : Int) - 149) = ((min d f : Nat) : Int) - 149 := by omega
  have hexact : f32Scaled a + f32Scaled b =
      (signed x (m * 2 ^ (d - min d f)) + signed y (n * 2 ^ (f - min d f))) * (2 ^ (min d f) : Nat) := by
    rw [hsa, hsb, Int.add_mul, signed_shift x m (Nat.min_le_left d f), signed_shift y n (Nat.min_le_right d f)]
  simp only [fadd, hva, hvb, fAddV, hmin, scaled_eq_signed]
  rw [hexact]
  generalize signed x (m * 2 ^ (d - min d f)) + signed y (n * 2 ^ (f - min d f)) = v
  split
  · next hv =>
    rw [hv, Int.zero_mul]
    split <;> exact roundsTo_zero rfl (by decide)
  · have hround := fRound_roundsTo (decide (v < 0)) v.natAbs (min d f) 0
    rw [← signed_mul, signed_natAbs, Int.natCast_zero, Int.sub_zero] at hround
    exact hround

theorem fmul_roundsTo {a b : F32} (ha : a.extractLsb' 23 8 ≠ 255) (hb : b.extractLsb' 23 8 ≠ 255) :
    RoundsTo (fmul a b) (f32Scaled a * f32Scaled b) (2 ^ 149) := by
  obtain ⟨x, m, d, hva, hsa⟩ := fVal_finite ha
  obtain ⟨y, n, f, hvb, hsb⟩ := fVal_finite hb
  have hexp : ((d : Int) - 149) + ((f : Int) - 149) = ((d + f : Nat) : Int) - 149 - (149 : Nat) := by omega
  have hexact : m * 2 ^ d * (n * 2 ^ f) = m * n * 2 ^ (d + f) := by rw [Nat.pow_add, Nat.mul_mul_mul_comm]
  simp only [fmul, hva, hvb, fMulV]
  rw [hexp, hsa, hsb, signed_mul_signed, hexact]
  exact fRound_roundsTo (x != y) (m * n) (d + f) 149

/-- Settles O15: a finite sum or product is `fRound` of its exact value, and `fRound` gives the nearest magnitude. -/
theorem binaryRoundsToNearest : Obligations.BinaryRoundsToNearest := by
  unfold Obligations.BinaryRoundsToNearest
  intro a b ha hb
  exact ⟨fadd_roundsTo ha hb, fmul_roundsTo ha hb⟩

end Sys2Proof.Machine
end
